-- ==== Sys2Proof/Word.lean ====
section
/-! DEFINITION. The words of the HXP block: bytes, angles, joint indices, and the closed sets of
names the spec gives codes to. The codes themselves and all arithmetic stand in `Decode.lean` and
under `Machine/`. -/

namespace Sys2Proof

/-- A byte, 0..255 (00_scope R9). -/
abbrev Byte := BitVec 8

/-- An `Angle` (00_scope R8). `val r p o` is the real number `r + p·π + Σ oᵢ·xᵢ`, with `r` and `p`
rational, the `oᵢ` integers, and `x₀, x₁, …` further real numbers of which nothing is known: the
free value `Config.otherReals` (log 1). So every real number is an operand, and the set is closed
under every operation of R8, each of them exact. A finite binary64 number is `val r 0 []` (log 9).
`inf` (the flag says negative) and `nan` exist only in the binary64 instance: as refused operands
(R160, R250), and as results of an overflow inside an evaluation. -/
inductive Angle where
  | val (r p : Rat) (o : List Int)
  | inf (neg : Bool)
  | nan
deriving DecidableEq, Repr

/-- The angle 0, the reset value of TARGET (10_state R32). -/
def Angle.zero : Angle := .val 0 0 []

/-- The legs of 30_encoding R88, in code order. -/
inductive Leg where
  | lFront | lMiddle | lRear | rFront | rMiddle | rRear
deriving DecidableEq, Repr

/-- The articulations of 30_encoding R88, in code order. -/
inductive Art where
  | shoulder | elbow | wrist
deriving DecidableEq, Repr

/-- Joint index j = 3·leg + art, 0..17 (20_memory R52). -/
abbrev Joint := Fin 18

/-- ServoIndex, 0..20: a payload byte position (20_memory R51). -/
abbrev ServoIndex := Fin 21

/-- One Angle per joint: an operand vector of RESET or TICK, and the registers TARGET and ZERO. -/
abbrev Angles := Vector Angle 18

/-- The 21 payload bytes of a frame (30_encoding R81), and the register FRAME (10_state R24). -/
abbrev Payload := Vector Byte 21

/-- The 23 bytes of a frame in transmission order (30_encoding R81). -/
abbrev FrameBytes := Vector Byte 23

/-- SEQ_STATE (10_state R21). The values 9..15 are never held, so they have no name here. -/
inductive SeqState where
  | hunt | payload | csum | publish | flush | arm | wait | terminated | fault
deriving DecidableEq, Repr

/-- The cause codes 0..6 of 60_exceptions R220. The codes 7..15 are never recorded. -/
inductive Cause where
  | none | protocolError | invalidArgument | streamClosed | cancelled | settleTimeout | rxOverrun
deriving DecidableEq, Repr

/-- The drive codes a joint can hold (30_encoding R87): the five TICK emits and the reset code. The
ten other 4-bit codes are never emitted. -/
inductive DriveCode where
  | reset | zero | softPos | softNeg | fullPos | fullNeg
deriving DecidableEq, Repr

/-- The deadband tiers of 41_angle_engine R146. -/
inductive Tier where
  | zero | soft | full
deriving DecidableEq, Repr

/-- The DIR field of a drive code (30_encoding R86): toward increasing or decreasing angle. -/
inductive Dir where
  | pos | neg
deriving DecidableEq, Repr, Inhabited

/-- The ten named steps of the SEQ agent (30_encoding R92). -/
inductive SeqStep where
  | huntDiscard | sync | payload | csum | eos | publish | flush | arm | ack | cancel
deriving DecidableEq, Repr

end Sys2Proof
end

