-- ==== Sys2Proof/Config.lean ====
section
/-! DEFINITION. What is fixed when the block is built (00_scope R7, 20_memory R57): the parameters
the source leaves open. A machine state carries its configuration as the field `cfg`, which no step
writes, so a statement about every state is a statement about every configuration (log 2). The two
free values of the model stand here too. -/

namespace Sys2Proof

/-- The instances of ANGLE_ARITH (00_scope R8): the reference instance, exact real arithmetic, and
IEEE 754 binary64, round to nearest even, one rounding per operation. -/
inductive ArithKind where
  | exact | binary64
deriving DecidableEq, Repr

/-- The sides of the robot. MIRROR_SET is one whole side (41_angle_engine R151). -/
inductive Side where
  | left | right
deriving DecidableEq, Repr

/-- SIGN[a], +1 or −1 (41_angle_engine R152). -/
inductive Sign where
  | plus | minus
deriving DecidableEq, Repr

/-- One value per articulation: OFFSET or SIGN. -/
structure PerArt (α : Type) where
  shoulder : α
  elbow : α
  wrist : α
deriving DecidableEq, Repr

/-- CONVERT, a parameter of the model (00_scope R3 (a), 41_angle_engine R150): the reference
definition, or any other function of a joint and a command byte. DESIGN CHOICE (log 24): another
function is held as the table of its values, since a field of the state is plain data. -/
inductive Converter where
  /-- The reference definition of R150. -/
  | reference
  /-- The angle by joint index (20_memory R52) and command byte. The block never looks up the bytes 0
  and 255 (R150). -/
  | table (entries : Vector (Vector Angle 256) 18)
deriving DecidableEq, Repr

/-- The parameters of 00_scope R7. -/
structure Config where
  /-- ANGLE_ARITH (R8, D3). -/
  arith : ArithKind
  /-- SERVO_MAP by joint index 3·leg + art (20_memory R58, D5). -/
  servoMap : Vector ServoIndex 18
  /-- CONVERT (41_angle_engine R150). The three parameters below are those of its reference
  definition. -/
  converter : Converter
  /-- MIRROR_SET: the legs of this side (41_angle_engine R151, D6). -/
  mirrored : Side
  /-- OFFSET[a] (41_angle_engine R152, D7). -/
  offset : PerArt Angle
  /-- SIGN[a] (41_angle_engine R152, D7). -/
  sign : PerArt Sign
  /-- RX_FIFO_DEPTH (10_state R25, D12). -/
  rxFifoDepth : Nat
  /-- TIMEBASE_HZ (43_handshake R196, D14). -/
  timebaseHz : Nat
  /-- TIMER_WIDTH (43_handshake R196, D14). -/
  timerWidth : Nat
deriving DecidableEq, Repr

/-- `Σ oᵢ·xᵢ`. -/
noncomputable def otherSum (x : Nat → ℝ) : List Int → ℝ
  | [] => 0
  | n :: o => n * x 0 + otherSum (fun i => x (i + 1)) o

/-- Some real numbers `x₀, x₁, …`, known only by a sign test: whether `r + p·π + Σ oᵢ·xᵢ < 0`. -/
structure OtherReals where
  isNeg : Rat → Rat → List Int → Bool
  real : ∃ x : Nat → ℝ, ∀ (r p : Rat) (o : List Int),
    isNeg r p o = true ↔ (r : ℝ) + p * Real.pi + otherSum x o < 0

/-- Free value (log 1): the real numbers `x₀, x₁, …` of `Angle.val`. 00_scope R8 takes every real
number as an Angle of the reference instance; nothing says which ones these are, so a statement that
holds does so for every choice of them. The binder only records that there are such numbers. -/
opaque Config.otherReals [Inhabited OtherReals] : OtherReals

/-- Free value (log 10): the direction of a SOFT or FULL drive when the difference is neither above
nor below 0. 41_angle_engine R147 states none; only a NaN difference of the binary64 instance gets
here. -/
opaque Config.unorderedDir : Angle → Dir

end Sys2Proof
end

