-- ==== Sys2Proof/Machine/Pi.lean ====
section
/-! DEFINITION. Comparing π with a rational number, exactly. 00_scope R8 takes π as a real number
in the reference instance, so every comparison of angles `r + p·π` comes down to `π < q` for a
rational `q`. Machin's formula gives rational bounds of π as close as wanted; π is irrational, so
some bound decides every `q`, and `piLt` is exactly the real order (`piLt_iff`). -/

namespace Sys2Proof.Machine

/-- The first `n` terms of the series of arctan (1/d). -/
def atanSum (d : Nat) : Nat → Rat
  | 0 => 0
  | n + 1 => atanSum d n + (if n % 2 = 0 then 1 else -1) / (((2 * n + 1) * d ^ (2 * n + 1) : Nat) : Rat)

/-- A rational lower bound of π, from Machin's formula. -/
def piLo (n : Nat) : Rat := 16 * atanSum 5 (2 * n) - 4 * atanSum 239 (2 * n + 1)
/-- A rational upper bound of π, from Machin's formula. -/
def piHi (n : Nat) : Rat := 16 * atanSum 5 (2 * n + 1) - 4 * atanSum 239 (2 * n)

theorem atanSum_eq_sum (d n : Nat) :
    ((atanSum d n : Rat) : ℝ)
      = ∑ i ∈ Finset.range n, (-1 : ℝ) ^ i * (((d : ℝ)⁻¹) ^ (2 * i + 1) / ((2 * i + 1 : Nat) : ℝ)) := by
  induction n with
  | zero => simp [atanSum]
  | succ n ih =>
    have sgn : (((if n % 2 = 0 then 1 else -1 : Rat)) : ℝ) = (-1) ^ n := by
      rcases Nat.mod_two_eq_zero_or_one n with h | h
      · rw [if_pos h, (Nat.even_iff.mpr h).neg_one_pow]; norm_num
      · rw [if_neg (by omega), (Nat.odd_iff.mpr h).neg_one_pow]; norm_num
    rw [Finset.sum_range_succ, ← ih, atanSum, Rat.cast_add, Rat.cast_div, sgn, inv_pow]
    push_cast
    congr 1
    field_simp

theorem atanSum_tendsto (d : Nat) (hd : 2 ≤ d) :
    Filter.Tendsto (fun n => ((atanSum d n : Rat) : ℝ)) Filter.atTop (nhds (Real.arctan (d : ℝ)⁻¹)) := by
  have hd' : (2 : ℝ) ≤ d := by exact_mod_cast hd
  have lt1 : ‖((d : ℝ)⁻¹)‖ < 1 := by
    rw [Real.norm_of_nonneg (by positivity)]
    exact inv_lt_one_of_one_lt₀ (by linarith)
  refine (Real.hasSum_arctan lt1).tendsto_sum_nat.congr fun n => ?_
  rw [atanSum_eq_sum]
  exact Finset.sum_congr rfl fun i _ => by ring

theorem atanTerm_antitone (d : Nat) (hd : 2 ≤ d) :
    Antitone fun i : Nat => ((d : ℝ)⁻¹) ^ (2 * i + 1) / ((2 * i + 1 : Nat) : ℝ) := by
  have hd' : (2 : ℝ) ≤ d := by exact_mod_cast hd
  intro i j hij
  have le1 : (d : ℝ)⁻¹ ≤ 1 := inv_le_one_of_one_le₀ (by linarith)
  have h1 : ((d : ℝ)⁻¹) ^ (2 * j + 1) ≤ ((d : ℝ)⁻¹) ^ (2 * i + 1) :=
    pow_le_pow_of_le_one (by positivity) le1 (by omega)
  have h2 : ((2 * i + 1 : Nat) : ℝ) ≤ ((2 * j + 1 : Nat) : ℝ) := by exact_mod_cast (by omega)
  have h3 : (0 : ℝ) < ((2 * i + 1 : Nat) : ℝ) := by positivity
  exact div_le_div₀ (by positivity) h1 h3 h2

theorem atanSum_even_le (d : Nat) (hd : 2 ≤ d) (n : Nat) :
    ((atanSum d (2 * n) : Rat) : ℝ) ≤ Real.arctan (d : ℝ)⁻¹ := by
  rw [atanSum_eq_sum]
  refine (atanTerm_antitone d hd).alternating_series_le_tendsto ?_ n
  simpa only [atanSum_eq_sum] using atanSum_tendsto d hd

theorem le_atanSum_odd (d : Nat) (hd : 2 ≤ d) (n : Nat) :
    Real.arctan (d : ℝ)⁻¹ ≤ ((atanSum d (2 * n + 1) : Rat) : ℝ) := by
  rw [atanSum_eq_sum]
  refine (atanTerm_antitone d hd).tendsto_le_alternating_series ?_ n
  simpa only [atanSum_eq_sum] using atanSum_tendsto d hd

/-- Machin's formula in the form used here. -/
theorem machin : (Real.pi : ℝ) = 16 * Real.arctan ((5 : Nat) : ℝ)⁻¹ - 4 * Real.arctan ((239 : Nat) : ℝ)⁻¹ := by
  have := Real.four_mul_arctan_inv_5_sub_arctan_inv_239
  push_cast
  linarith

theorem piLo_le (n : Nat) : ((piLo n : Rat) : ℝ) ≤ Real.pi := by
  have h1 := atanSum_even_le 5 (by omega) n
  have h2 := le_atanSum_odd 239 (by omega) n
  rw [machin, piLo]
  push_cast at *
  linarith

theorem le_piHi (n : Nat) : Real.pi ≤ ((piHi n : Rat) : ℝ) := by
  have h1 := le_atanSum_odd 5 (by omega) n
  have h2 := atanSum_even_le 239 (by omega) n
  rw [machin, piHi]
  push_cast at *
  linarith

theorem double_tendsto : Filter.Tendsto (fun n : Nat => 2 * n) Filter.atTop Filter.atTop :=
  Filter.tendsto_atTop_mono (fun n => by simp only [id]; omega) Filter.tendsto_id

theorem odd_tendsto : Filter.Tendsto (fun n : Nat => 2 * n + 1) Filter.atTop Filter.atTop :=
  Filter.tendsto_atTop_mono (fun n => by simp only [id]; omega) Filter.tendsto_id

theorem piLo_tendsto : Filter.Tendsto (fun n => ((piLo n : Rat) : ℝ)) Filter.atTop (nhds Real.pi) := by
  rw [machin]
  refine ((((atanSum_tendsto 5 (by omega)).comp double_tendsto).const_mul 16).sub
    (((atanSum_tendsto 239 (by omega)).comp odd_tendsto).const_mul 4)).congr fun n => ?_
  simp [piLo, Function.comp]

theorem piHi_tendsto : Filter.Tendsto (fun n => ((piHi n : Rat) : ℝ)) Filter.atTop (nhds Real.pi) := by
  rw [machin]
  refine ((((atanSum_tendsto 5 (by omega)).comp odd_tendsto).const_mul 16).sub
    (((atanSum_tendsto 239 (by omega)).comp double_tendsto).const_mul 4)).congr fun n => ?_
  simp [piHi, Function.comp]

/-- Every rational is told apart from π by some pair of bounds. -/
theorem pi_separated (q : Rat) : ∃ n, q ≤ piLo n ∨ piHi n ≤ q := by
  rcases lt_trichotomy (q : ℝ) Real.pi with h | h | h
  · obtain ⟨n, hn⟩ := (piLo_tendsto.eventually_const_lt h).exists
    exact ⟨n, .inl (by exact_mod_cast hn.le)⟩
  · exact absurd ⟨q, h⟩ irrational_pi
  · obtain ⟨n, hn⟩ := (piHi_tendsto.eventually_lt_const h).exists
    exact ⟨n, .inr (by exact_mod_cast hn.le)⟩

/-- `π < q`, by the first of the listed precisions that decides it. -/
def piSearch (q : Rat) : List Nat → Option Bool
  | [] => none
  | n :: ns => if q ≤ piLo n then some false else if piHi n ≤ q then some true else piSearch q ns

/-- `π < q`: 20 decimals first, then a few precisions of Machin's formula, then the first
precision that decides it (there is one, `pi_separated`). -/
def piLt (q : Rat) : Bool :=
  if q ≤ 314159265358979323846 / 100000000000000000000 then false
  else if 314159265358979323847 / 100000000000000000000 ≤ q then true
  else match piSearch q [16, 64, 256] with
    | some b => b
    | none => decide (piHi (Nat.find (pi_separated q)) ≤ q)

theorem pi_ne_rat (q : Rat) : Real.pi ≠ (q : ℝ) := fun h => irrational_pi ⟨q, h.symm⟩

theorem piSearch_sound (q : Rat) (ns : List Nat) (b : Bool) (h : piSearch q ns = some b) :
    b = true ↔ Real.pi < (q : ℝ) := by
  induction ns with
  | nil => simp [piSearch] at h
  | cons n ns ih =>
    rw [piSearch] at h
    split at h
    · rename_i hq
      have : (q : ℝ) ≤ Real.pi := le_trans (by exact_mod_cast hq) (piLo_le n)
      simp_all
    · split at h
      · rename_i hq
        have : Real.pi ≤ (q : ℝ) := le_trans (le_piHi n) (by exact_mod_cast hq)
        have := lt_of_le_of_ne this (pi_ne_rat q)
        simp_all
      · exact ih h

/-- `piLt` is the order of the real numbers. -/
theorem piLt_iff (q : Rat) : piLt q = true ↔ Real.pi < (q : ℝ) := by
  unfold piLt
  split
  · rename_i hq
    have : (q : ℝ) ≤ 3.14159265358979323846 := by
      have : (q : ℝ) ≤ ((314159265358979323846 / 100000000000000000000 : Rat) : ℝ) := by exact_mod_cast hq
      norm_num at this ⊢
      linarith
    have := Real.pi_gt_d20
    simp only [Bool.false_eq_true, false_iff, not_lt]
    linarith
  · split
    · rename_i hq
      have : (3.14159265358979323847 : ℝ) ≤ q := by
        have : ((314159265358979323847 / 100000000000000000000 : Rat) : ℝ) ≤ (q : ℝ) := by exact_mod_cast hq
        norm_num at this ⊢
        linarith
      have := Real.pi_lt_d20
      simp only [true_iff]
      linarith
    · split
      · rename_i b hb
        exact piSearch_sound q _ b hb
      · rw [decide_eq_true_iff]
        constructor
        · intro h
          exact lt_of_le_of_ne (le_trans (le_piHi _) (by exact_mod_cast h)) (pi_ne_rat q)
        · intro h
          rcases Nat.find_spec (pi_separated q) with hl | hr
          · exact absurd h (not_lt.mpr (le_trans (by exact_mod_cast hl) (piLo_le _)))
          · exact hr
end Sys2Proof.Machine
end

