-- ==== Sys2Proof/Machine/AngleArith.lean ====
section
/-! DEFINITION. The arithmetic ANGLE_ARITH supplies (00_scope R8): the constants π, TURN, TIER1,
TIER2 and STEP, and `+`, `−`, `×` by an integer, `|·|`, floor-division by TURN, `<`, `<=` and `>`,
in both instances. An operation is the exact result followed by `rnd`, the instance's rounding: none
in the reference instance, to nearest binary64 with ties to even in the other. The sign of
`r + p·π` is decided (`isNegPi_iff`); where other reals take part, the free value decides it. -/

namespace Sys2Proof.Machine

/-- The angle is a number: neither a NaN nor an infinity. -/
def isNumber : Angle → Bool
  | .val _ _ _ => true
  | .inf _ => false
  | .nan => false

/-! ## Exact operations, with the infinities and NaN of IEEE 754 -/

/-- The coefficients of a sum: `Σ aᵢ·xᵢ + Σ bᵢ·xᵢ`. -/
def addOther : List Int → List Int → List Int
  | [], b => b
  | a :: as, [] => a :: as
  | a :: as, b :: bs => (a + b) :: addOther as bs

/-- The exact sum. -/
def rawAdd : Angle → Angle → Angle
  | .val r p o, .val r' p' o' => .val (r + r') (p + p') (addOther o o')
  | .nan, _ => .nan
  | _, .nan => .nan
  | .inf a, .inf b => if a = b then .inf a else .nan
  | .inf a, .val _ _ _ => .inf a
  | .val _ _ _, .inf b => .inf b

/-- The negated angle. -/
def negAngle : Angle → Angle
  | .val r p o => .val (-r) (-p) (o.map (- ·))
  | .inf a => .inf (!a)
  | .nan => .nan

/-- The exact product with an integer. -/
def rawMulInt (n : Int) : Angle → Angle
  | .val r p o => .val (n * r) (n * p) (o.map (n * ·))
  | .inf a => if n = 0 then .nan else .inf (if n < 0 then !a else a)
  | .nan => .nan

/-! ## The order -/

/-- `r + p·π < 0`, exactly. -/
def isNegPi (r p : Rat) : Bool :=
  if p = 0 then decide (r < 0)
  else if 0 < p then piLt (-r / p)
  else !piLt (-r / p)

theorem isNegPi_iff (r p : Rat) : isNegPi r p = true ↔ (r : ℝ) + p * Real.pi < 0 := by
  unfold isNegPi
  split
  · rename_i h
    subst h
    simp
  · rename_i h
    split
    · rename_i hp
      have hp' : (0 : ℝ) < p := by exact_mod_cast hp
      rw [piLt_iff]
      push_cast
      rw [lt_div_iff₀ hp']
      constructor <;> intro h <;> linarith
    · rename_i hp
      have hp' : (p : ℝ) < 0 := by exact_mod_cast lt_of_le_of_ne (not_lt.mp hp) h
      have hne := pi_ne_rat (-r / p)
      rw [Bool.not_eq_true', ← Bool.not_eq_true, piLt_iff, not_lt, le_iff_lt_or_eq, or_iff_left hne.symm]
      push_cast
      rw [div_lt_iff_of_neg hp']
      constructor <;> intro h <;> linarith

theorem otherSum_zero (o : List Int) : otherSum (fun _ => 0) o = 0 := by
  induction o with
  | nil => rfl
  | cons n o ih => rw [otherSum, ih]; ring

theorem otherSum_of_all_zero (x : Nat → ℝ) (o : List Int) (h : o.all (· == 0) = true) :
    otherSum x o = 0 := by
  induction o generalizing x with
  | nil => rfl
  | cons n o ih =>
    simp only [List.all_cons, Bool.and_eq_true, beq_iff_eq] at h
    rw [otherSum, ih _ h.2, h.1]
    simp

/-- There are such real numbers: all of them 0. -/
def noOtherReals : OtherReals where
  isNeg := fun r p _ => isNegPi r p
  real := ⟨fun _ => 0, fun r p o => by rw [otherSum_zero, add_zero, isNegPi_iff]⟩

/-- The real numbers `x₀, x₁, …` of `Angle.val` (log 1). Nothing is known of them but that they are
real numbers. -/
def otherReals : OtherReals := @Config.otherReals ⟨noOtherReals⟩

/-- `r + p·π + Σ oᵢ·xᵢ < 0`, exactly. -/
def isNegVal (r p : Rat) (o : List Int) : Bool :=
  if o.all (· == 0) then isNegPi r p else otherReals.isNeg r p o

theorem isNegVal_real : ∃ x : Nat → ℝ, ∀ (r p : Rat) (o : List Int),
    isNegVal r p o = true ↔ (r : ℝ) + p * Real.pi + otherSum x o < 0 := by
  obtain ⟨x, hx⟩ := otherReals.real
  refine ⟨x, fun r p o => ?_⟩
  unfold isNegVal
  split
  · rename_i h
    rw [isNegPi_iff, otherSum_of_all_zero x o h, add_zero]
  · exact hx r p o

/-- `x < y` (R8). False when an operand is a NaN. -/
def ltAngle : Angle → Angle → Bool
  | .val r p o, .val r' p' o' => isNegVal (r - r') (p - p') (addOther o (o'.map (- ·)))
  | .nan, _ => false
  | _, .nan => false
  | .inf a, .inf b => a && !b
  | .inf a, .val _ _ _ => a
  | .val _ _ _, .inf b => !b

/-- `x > y` (R8). -/
def gtAngle (x y : Angle) : Bool := ltAngle y x

/-- `x <= y` (R8). False when an operand is a NaN. -/
def leAngle (x y : Angle) : Bool :=
  match x, y with
  | .nan, _ => false
  | _, .nan => false
  | x, y => !ltAngle y x

/-- `|x|` (R8). -/
def absAngle (x : Angle) : Angle :=
  match x with
  | .val r p o => if isNegVal r p o then negAngle x else x
  | .inf _ => .inf false
  | .nan => .nan

/-! ## Rounding to binary64 -/

/-- 2^i as a rational. -/
def pow2 (i : Int) : Rat :=
  if 0 ≤ i then ((2 ^ i.toNat : Nat) : Rat) else 1 / ((2 ^ (-i).toNat : Nat) : Rat)

/-- floor (log2 a) for a positive rational. -/
def ilog2 (a : Rat) : Int :=
  let e : Int := (Nat.log2 a.num.natAbs : Int) - (Nat.log2 a.den : Int)
  if a < pow2 e then e - 1 else e

/-- The integer nearest to `a`, ties to even. -/
def roundHalfEven (a : Rat) : Int :=
  let f := a.floor
  let d := a - f
  if d < 1 / 2 then f else if 1 / 2 < d then f + 1 else if f % 2 = 0 then f else f + 1

/-- The binary64 number nearest to `q`, ties to even: 53 significant bits, least exponent −1074,
overflow to an infinity from 2^1024 on. -/
def roundBinary64 (q : Rat) : Angle :=
  if q = 0 then .zero
  else
    let ulp := pow2 (max (ilog2 |q|) (-1022) - 52)
    let a := (roundHalfEven (|q| / ulp) : Rat) * ulp
    if pow2 1024 ≤ a then .inf (decide (q < 0)) else .val (if q < 0 then -a else a) 0 []

/-- The instance's rounding of an exact result (R8). A number with a multiple of π
or of another real is none of the binary64 instance. -/
def rnd (k : ArithKind) (x : Angle) : Angle :=
  match k with
  | .exact => x
  | .binary64 =>
    match x with
    | .val r p o => if p = 0 ∧ o = [] then roundBinary64 r else .nan
    | .inf a => .inf a
    | .nan => .nan

/-- The angle is a value of the instance: any number in the reference instance, a finite binary64
number in the other. -/
def isAngleOf (k : ArithKind) (x : Angle) : Bool :=
  isNumber x && decide (rnd k x = x)

/-! ## The operations of the instance -/

/-- `x + y`. -/
def add (k : ArithKind) (x y : Angle) : Angle := rnd k (rawAdd x y)

/-- `x − y`. -/
def sub (k : ArithKind) (x y : Angle) : Angle := rnd k (rawAdd x (negAngle y))

/-- `n × x`. -/
def mulInt (k : ArithKind) (n : Int) (x : Angle) : Angle := rnd k (rawMulInt n x)

/-- π rounded to binary64. -/
def pi64 : Rat := 884279719003555 / 281474976710656

/-- The constant π. -/
def piAngle : ArithKind → Angle
  | .exact => .val 0 1 []
  | .binary64 => .val pi64 0 []

/-- TURN = 2π. -/
def turn : ArithKind → Angle
  | .exact => .val 0 2 []
  | .binary64 => .val (2 * pi64) 0 []

/-- TIER1 = π/100. -/
def tier1 : ArithKind → Angle
  | .exact => .val 0 (1 / 100) []
  | .binary64 => roundBinary64 (pi64 / 100)

/-- TIER2 = π/80. -/
def tier2 : ArithKind → Angle
  | .exact => .val 0 (1 / 80) []
  | .binary64 => roundBinary64 (pi64 / 80)

/-- STEP = π/256. -/
def stepAngle : ArithKind → Angle
  | .exact => .val 0 (1 / 256) []
  | .binary64 => .val (pi64 / 256) 0 []

/-! ## floor (x / TURN) -/

/-- `k·2π ≤ r + p·π + Σ oᵢ·xᵢ`, exactly. -/
def turnsLe (k : Nat) (r p : Rat) (o : List Int) : Bool := !isNegVal r (p - 2 * k) o

/-- The greatest `k + c` with `c < 2^n` and `(k + c)·2π ≤ r + p·π + Σ oᵢ·xᵢ`, when `k` itself
qualifies: its bits are found from the top. -/
def floorBits (r p : Rat) (o : List Int) : Nat → Nat → Nat
  | 0, k => k
  | n + 1, k => floorBits r p o n (if turnsLe (k + 2 ^ n) r p o then k + 2 ^ n else k)

/-- A real number has fewer than 2^n whole turns, for some n. -/
theorem turns_bounded (r p : Rat) (o : List Int) : ∃ n : Nat, turnsLe (2 ^ n) r p o = false := by
  obtain ⟨x, hx⟩ := isNegVal_real
  obtain ⟨n, hn⟩ := exists_nat_gt ((r : ℝ) + p * Real.pi + otherSum x o)
  refine ⟨n, ?_⟩
  have h2 : (n : ℝ) < 2 ^ n := by exact_mod_cast Nat.lt_two_pow_self
  have hpi := Real.pi_gt_three
  rw [turnsLe, Bool.not_eq_false', hx]
  push_cast
  nlinarith

/-- Enough bits for the number of turns in `r + p·π + Σ oᵢ·xᵢ`: a bound from `r` and `p` where no
other real takes part, else the first that suffices (there is one, `turns_bounded`). -/
def turnBits (r p : Rat) (o : List Int) : Nat :=
  if o.all (· == 0) then Nat.log2 (r.ceil.natAbs + p.ceil.natAbs + 1) + 1
  else Nat.find (turns_bounded r p o)

/-- floor ((r + p·π + Σ oᵢ·xᵢ) / 2π) for a number that is not negative. -/
def floorNonneg (r p : Rat) (o : List Int) : Nat := floorBits r p o (turnBits r p o) 0

/-- floor ((r + p·π + Σ oᵢ·xᵢ) / 2π), exactly. For a negative number it is `−k` when the number is
just `−k` turns, and `−k − 1` when it lies below that, where `k` is the floor of its negation. -/
def floorExact (r p : Rat) (o : List Int) : Int :=
  if isNegVal r p o then
    let k := floorNonneg (-r) (-p) (o.map (- ·))
    if isNegVal r (p + 2 * (k : Rat)) o then -(k : Int) - 1 else -(k : Int)
  else floorNonneg r p o

/-- floor (x / TURN) (R8): exact in the reference instance; in the binary64 instance the quotient is
rounded first. `none` where the quotient is no number. -/
def floorTurn (k : ArithKind) (x : Angle) : Option Int :=
  match k, x with
  | .exact, .val r p o => some (floorExact r p o)
  | .binary64, .val r p o =>
    match rnd .binary64 (.val (r / (2 * pi64)) p o) with
    | .val q _ _ => some q.floor
    | _ => none
  | _, _ => none

end Sys2Proof.Machine
end

