-- ==== Sys2Proof/Machine/AngleEngine.lean ====
section
/-! DEFINITION. The modular angle arithmetic engine: 41_angle_engine R140 to R149. -/

namespace Sys2Proof.Machine

/-- `mod2pi(x) = x − TURN · floor(x / TURN)` (R140). -/
def mod2pi (k : ArithKind) (x : Angle) : Angle :=
  match floorTurn k x with
  | some n => sub k x (mulInt k n (turn k))
  | none => .nan

/-- The composed target `mod2pi(ZERO[j] + TARGET[j])` (R143). -/
def composedTarget (k : ArithKind) (zero target : Angle) : Angle := mod2pi k (add k zero target)

/-- Shortest-path resolution (R144): two tests in sequence, then `diff = c − t`. -/
def resolve (k : ArithKind) (c t0 : Angle) : Angle :=
  let d := sub k c t0
  let t1 := if gtAngle d (piAngle k) then add k t0 (turn k) else t0
  let t2 := if gtAngle (sub k t1 c) (piAngle k) then sub k t1 (turn k) else t1
  sub k c t2

/-- Tier classification of `|diff|` (R146). -/
def classify (k : ArithKind) (a : Angle) : Tier :=
  if ltAngle a (tier1 k) then .zero
  else if ltAngle a (tier2 k) then .soft
  else .full

/-- The direction of a drive (R147): none (coded 0, POS) in ZERO, the sign of `diff` in SOFT, the
opposite sign in FULL. R147 states none for a difference neither above nor below 0 (log 10). -/
def direction (tier : Tier) (diff : Angle) : Dir :=
  match tier with
  | .zero => .pos
  | .soft =>
    if gtAngle diff .zero then .pos
    else if ltAngle diff .zero then .neg
    else Config.unorderedDir diff
  | .full =>
    if gtAngle diff .zero then .neg
    else if ltAngle diff .zero then .pos
    else Config.unorderedDir diff

/-- The settled predicate (R148): tiers ZERO and SOFT. -/
def isSettledTier (tier : Tier) : Bool := decide (tier ≠ .full)

/-- What AngleEval answers (R149). -/
structure AngleEval where
  diff : Angle
  tier : Tier
  dir : Dir
  settled : Bool
deriving DecidableEq, Repr

/-- The engine as one pure function (R149). -/
def angleEval (k : ArithKind) (cur zero target : Angle) : AngleEval :=
  let diff := resolve k (mod2pi k cur) (composedTarget k zero target)
  let tier := classify k (absAngle diff)
  { diff := diff, tier := tier, dir := direction tier diff, settled := isSettledTier tier }

/-- The drive code of one joint update (42_joint_servo R161, 30_encoding R87). -/
def driveCode (tier : Tier) (dir : Dir) : DriveCode :=
  match tier, dir with
  | .zero, _ => .zero
  | .soft, .pos => .softPos
  | .soft, .neg => .softNeg
  | .full, .pos => .fullPos
  | .full, .neg => .fullNeg

end Sys2Proof.Machine
end

