-- ==== Sys2Proof/Machine/Parameters.lean ====
section
/-! DEFINITION. The constants and implementation parameters of 00_scope R7, the servo address map
(20_memory R57 to R60) and the converter CONVERT (41_angle_engine R150). -/

namespace Sys2Proof.Machine

/-- SYNC (R7, R81). -/
def SYNC : Byte := 0xFF#8
/-- The response ACK, ASCII '1' (R7, R84). -/
def ACK : Byte := 0x31#8
/-- The response NACK, ASCII '0' (R7, R84). -/
def NACK : Byte := 0x30#8
/-- TIMEOUT_S, in seconds (R7). -/
def timeoutSeconds : Nat := 5
/-- MIRROR_BASE (R7). -/
def mirrorBase : Int := 254

/-- The framing sentinels 0x00 and 0xFF, reserved as payload data (30_encoding R83). -/
def isSentinel (b : Byte) : Bool := b == 0x00#8 || b == 0xFF#8

/-- Some payload byte is a sentinel (40_frame_codec R114, R117). -/
def hasSentinel (p : Payload) : Bool := p.toList.any isSentinel

/-- The checksum `CS(p)`, the sum modulo 256 (30_encoding R82). -/
def checksum (p : Payload) : Byte := p.toList.foldl (· + ·) 0x00#8

/-- TIMEOUT_TICKS = TIMEOUT_S × TIMEBASE_HZ (43_handshake R196). -/
def timeoutTicks (c : Config) : Nat := timeoutSeconds * c.timebaseHz

/-! ## Leg and articulation codes (30_encoding R88) -/

/-- Leg codes; 6 and 7 mean "absent". -/
def legOfCode : BitVec 3 → Option Leg
  | 0 => some .lFront
  | 1 => some .lMiddle
  | 2 => some .lRear
  | 3 => some .rFront
  | 4 => some .rMiddle
  | 5 => some .rRear
  | _ => none

/-- Articulation codes; 3 means "absent". -/
def artOfCode : BitVec 2 → Option Art
  | 0 => some .shoulder
  | 1 => some .elbow
  | 2 => some .wrist
  | _ => none

/-- The code of a leg. -/
def legCode : Leg → Fin 6
  | .lFront => 0
  | .lMiddle => 1
  | .lRear => 2
  | .rFront => 3
  | .rMiddle => 4
  | .rRear => 5

/-- The code of an articulation. -/
def artCode : Art → Fin 3
  | .shoulder => 0
  | .elbow => 1
  | .wrist => 2

/-- Joint index `j = 3·leg + art` (20_memory R52). -/
def jointOf (leg : Leg) (art : Art) : Joint :=
  ⟨3 * (legCode leg).val + (artCode art).val, by omega⟩

/-- `leg = j div 3` (43_handshake R181). -/
def legOfJoint (j : Joint) : Leg :=
  match j.val / 3 with
  | 0 => .lFront
  | 1 => .lMiddle
  | 2 => .lRear
  | 3 => .rFront
  | 4 => .rMiddle
  | _ => .rRear

/-- `art = j mod 3` (43_handshake R181). -/
def artOfJoint (j : Joint) : Art :=
  match j.val % 3 with
  | 0 => .shoulder
  | 1 => .elbow
  | _ => .wrist

/-! ## The servo address map -/

/-- `SERVO_MAP(leg, art)` (R58). -/
def servoIndex (c : Config) (leg : Leg) (art : Art) : ServoIndex := c.servoMap[jointOf leg art]

/-- A lookup by codes (R60): an absent leg or articulation is InvalidArgument and gives no index. No
step of the block performs one. -/
def servoLookup (c : Config) (leg : BitVec 3) (art : BitVec 2) : Except Cause ServoIndex :=
  match legOfCode leg, artOfCode art with
  | some l, some a => .ok (servoIndex c l a)
  | _, _ => .error .invalidArgument

/-- SERVO_INV (R58): the pair that a ServoIndex addresses, none for the reserved indices. -/
def servoInv (c : Config) (i : ServoIndex) : Option (Leg × Art) :=
  ((List.finRange 18).find? fun j => c.servoMap[j] == i).map fun j => (legOfJoint j, artOfJoint j)

/-- The default SERVO_MAP: the servo index equals the joint index (R59). -/
def defaultServoMap : Vector ServoIndex 18 := Vector.ofFn fun j => ⟨j.val, by omega⟩

/-! ## CONVERT -/

/-- `leg ∈ MIRROR_SET` (41_angle_engine R151). -/
def isMirrored (c : Config) (leg : Leg) : Bool :=
  match leg, c.mirrored with
  | .lFront, .left => true
  | .lMiddle, .left => true
  | .lRear, .left => true
  | .rFront, .right => true
  | .rMiddle, .right => true
  | .rRear, .right => true
  | _, _ => false

/-- The entry of an articulation. -/
def perArt {α : Type} (x : PerArt α) : Art → α
  | .shoulder => x.shoulder
  | .elbow => x.elbow
  | .wrist => x.wrist

/-- SIGN[a] as an integer. -/
def signInt : Sign → Int
  | .plus => 1
  | .minus => -1

/-- The reference definition of `CONVERT(leg, art, v)` (R150): `SIGN·e·STEP + off`, with the mirrored
effective value `254 − v` and, for a mirrored shoulder, π added to the offset first (93 I5 (d)). -/
def convertReference (c : Config) (leg : Leg) (art : Art) (v : Byte) : Angle :=
  let e : Int := if isMirrored c leg then mirrorBase - v.toNat else v.toNat
  let off := perArt c.offset art
  let off := if isMirrored c leg ∧ art = .shoulder then add c.arith off (piAngle c.arith) else off
  add c.arith (mulInt c.arith (signInt (perArt c.sign art) * e) (stepAngle c.arith)) off

/-- `CONVERT(leg, art, v)`, the parameter of the build (R150; log 24). -/
def convert (c : Config) (leg : Leg) (art : Art) (v : Byte) : Angle :=
  match c.converter with
  | .reference => convertReference c leg art v
  | .table entries => entries[jointOf leg art][v.toFin]

/-! ## Legal configurations -/

/-- The values of a converter given by a table are Angles of the instance (R150). -/
def validConverter (k : ArithKind) : Converter → Bool
  | .reference => true
  | .table entries => entries.toList.all fun row => row.toList.all (isAngleOf k)

/-- What the spec requires of the parameters: SERVO_MAP is a bijection onto 0..17 (R58), every
OFFSET and every value of a CONVERT table is an Angle of the instance (R150), RX_FIFO_DEPTH is at least 1 (R7), and TIMEOUT_TICKS is
at least 1 and below 2^TIMER_WIDTH (R196). -/
def validConfig (c : Config) : Bool :=
  c.servoMap.toList.all (fun i => decide (i.val < 18)) && decide c.servoMap.toList.Nodup
  && isAngleOf c.arith c.offset.shoulder && isAngleOf c.arith c.offset.elbow
  && isAngleOf c.arith c.offset.wrist && validConverter c.arith c.converter
  && decide (1 ≤ c.rxFifoDepth)
  && decide (1 ≤ timeoutTicks c) && decide (timeoutTicks c < 2 ^ c.timerWidth)

/-- The defaults of R7 with the reference CONVERT and test instance TI-1 (92_eei_decisions D7):
OFFSET[a] = 0, SIGN[a] = +1. -/
def testInstance : Config where
  arith := .exact
  servoMap := defaultServoMap
  converter := .reference
  mirrored := .right
  offset := { shoulder := .zero, elbow := .zero, wrist := .zero }
  sign := { shoulder := .plus, elbow := .plus, wrist := .plus }
  rxFifoDepth := 256
  timebaseHz := 1000
  timerWidth := 16

end Sys2Proof.Machine
end

