-- ==== Sys2Proof/Syntax.lean ====
section
/-! DEFINITION. The instructions: one constructor per row of `spec/opcode_table.json`.

The table lists more than operations. Beside the host's operation words (30_encoding R90) and the
internal SEQ steps (R92) it lists the bytes of the wire (R85), the frame (R81), the response bytes
(R84), the drive codes (R87) and the cause codes (60_exceptions R220). Those rows name events of the
block; log 6, log 7 and log 8 say which step each one is. -/

namespace Sys2Proof

/-- One constructor per row of the opcode table. -/
inductive Instr where
  /-- RESET with the measured start-up angles (70_reset_and_hazards R250). -/
  | reset (init : Angles)
  /-- RX_BYTE (40_frame_codec R110). -/
  | rxByte (b : Byte)
  /-- RX_EOS (40_frame_codec R115). -/
  | rxEos
  /-- CANCEL (43_handshake R187). -/
  | cancel
  /-- TICK with the measured angles (42_joint_servo R160). -/
  | tick (cur : Angles)
  /-- TIME_TICK (43_handshake R203). -/
  | timeTick
  /-- READ_REG of register `n` (43_handshake R206). -/
  | readReg (n : BitVec 8)
  /-- SNAPSHOT (43_handshake R207). -/
  | snapshot
  /-- ENCODE (40_frame_codec R117). -/
  | encode (p : Payload)
  /-- RESERVED, OP 0x9 (30_encoding R91). -/
  | reserved9 (imm : BitVec 8)
  /-- RESERVED, OP 0xA and 0xB (30_encoding R91). -/
  | reservedAB (imm : BitVec 8) (low : BitVec 1)
  /-- RESERVED, OP 0xC to 0xF (30_encoding R91). -/
  | reservedCF (imm : BitVec 8) (low : BitVec 2)
  /-- SEQ_HUNT_DISCARD (40_frame_codec R111). -/
  | seqHuntDiscard
  /-- SEQ_SYNC (40_frame_codec R112). -/
  | seqSync
  /-- SEQ_PAYLOAD (40_frame_codec R113). -/
  | seqPayload
  /-- SEQ_CSUM (40_frame_codec R114). -/
  | seqCsum
  /-- SEQ_EOS (40_frame_codec R116). -/
  | seqEos
  /-- SEQ_PUBLISH (43_handshake R181). -/
  | seqPublish
  /-- SEQ_FLUSH (43_handshake R184). -/
  | seqFlush
  /-- SEQ_ARM (43_handshake R185). -/
  | seqArm
  /-- SEQ_ACK (43_handshake R186). -/
  | seqAck
  /-- SEQ_CANCEL (43_handshake R188). -/
  | seqCancel
  /-- WIRE_SYNC: the byte 0xFF taken in HUNT (30_encoding R85). -/
  | wireSync
  /-- WIRE_GARBAGE: any other byte taken in HUNT (30_encoding R85). -/
  | wireGarbage (b : Byte)
  /-- WIRE_PAYLOAD: a byte taken in PAYLOAD (30_encoding R85). -/
  | wirePayload (b : Byte)
  /-- WIRE_CHECKSUM: a byte taken in CSUM (30_encoding R85). -/
  | wireChecksum (c : Byte)
  /-- FRAME: SYNC, a payload and a checksum byte (30_encoding R81, R96). -/
  | frame (p : Payload) (cs : Byte)
  /-- ACK: the step that emits 0x31 (43_handshake R186). -/
  | ack
  /-- NACK: the step that emits 0x30 (40_frame_codec R114, 43_handshake R203). -/
  | nack
  /-- DRIVE_ZERO: a TICK that emits 0x8 (30_encoding R87). -/
  | driveZero (cur : Angles)
  /-- DRIVE_SOFT_POS: a TICK that emits 0x9 (30_encoding R87). -/
  | driveSoftPos (cur : Angles)
  /-- DRIVE_SOFT_NEG: a TICK that emits 0xD (30_encoding R87). -/
  | driveSoftNeg (cur : Angles)
  /-- DRIVE_FULL_POS: a TICK that emits 0x2 (30_encoding R87). -/
  | driveFullPos (cur : Angles)
  /-- DRIVE_FULL_NEG: a TICK that emits 0x6 (30_encoding R87). -/
  | driveFullNeg (cur : Angles)
  /-- DRIVE_RESET: the RESET that sets DRIVE_OUT to 0x0 (30_encoding R87). -/
  | driveReset (init : Angles)
  /-- CAUSE_NONE: the RESET that sets CAUSE to 0 (60_exceptions R220). -/
  | causeNone (init : Angles)
  /-- CAUSE_PROTOCOL_ERROR: the step that records code 1 (60_exceptions R221). -/
  | causeProtocolError
  /-- CAUSE_INVALID_ARGUMENT: the step that records code 2 (60_exceptions R222). -/
  | causeInvalidArgument
  /-- CAUSE_STREAM_CLOSED: the step that records code 3 (60_exceptions R223). -/
  | causeStreamClosed
  /-- CAUSE_CANCELLED: the step that records code 4 (60_exceptions R224). -/
  | causeCancelled
  /-- CAUSE_SETTLE_TIMEOUT: the step that records code 5 (60_exceptions R225). -/
  | causeSettleTimeout
  /-- CAUSE_RX_OVERRUN: the step that records code 6 (60_exceptions R227). -/
  | causeRxOverrun
deriving DecidableEq, Repr

end Sys2Proof
end

