-- ==== Sys2Proof/WellFormed.lean ====
section
/-! DEFINITION. Well-formed instructions: what the spec requires of the operands beyond their
shape, which the types fix. -/

namespace Sys2Proof

/-- 18 finite Angles: the operand vector of RESET and TICK (42_joint_servo R160, 70_reset R250). -/
def finiteAngles (v : Angles) : Bool := v.toList.all Machine.isNumber

/-- The operands are legal: angles are finite (R160, R250), a garbage byte is not SYNC (R85), and a
frame carries no sentinel and its own checksum (R81). -/
def wellFormed : Instr → Bool
  | .reset init => finiteAngles init
  | .tick cur => finiteAngles cur
  | .wireGarbage b => decide (b ≠ Machine.SYNC)
  | .frame p cs => !Machine.hasSentinel p && decide (cs = Machine.checksum p)
  | .driveZero cur => finiteAngles cur
  | .driveSoftPos cur => finiteAngles cur
  | .driveSoftNeg cur => finiteAngles cur
  | .driveFullPos cur => finiteAngles cur
  | .driveFullNeg cur => finiteAngles cur
  | .driveReset init => finiteAngles init
  | .causeNone init => finiteAngles init
  | .rxByte _ => true
  | .rxEos => true
  | .cancel => true
  | .timeTick => true
  | .readReg _ => true
  | .snapshot => true
  | .encode _ => true
  | .reserved9 _ => true
  | .reservedAB _ _ => true
  | .reservedCF _ _ => true
  | .seqHuntDiscard => true
  | .seqSync => true
  | .seqPayload => true
  | .seqCsum => true
  | .seqEos => true
  | .seqPublish => true
  | .seqFlush => true
  | .seqArm => true
  | .seqAck => true
  | .seqCancel => true
  | .wireSync => true
  | .wirePayload _ => true
  | .wireChecksum _ => true
  | .ack => true
  | .nack => true
  | .causeProtocolError => true
  | .causeInvalidArgument => true
  | .causeStreamClosed => true
  | .causeCancelled => true
  | .causeSettleTimeout => true
  | .causeRxOverrun => true

end Sys2Proof
end

