-- ==== Sys2Proof/Decode.lean ====
section
/-! DEFINITION. The encodings (30_encoding): raw packets, the decoder, total and rejecting by name,
and after it the encoder, written from the same tables. -/

namespace Sys2Proof

/-- The operand vector beside an operation word (30_encoding R89). Its length is not fixed here: a
vector of the wrong shape is refused (R91). -/
inductive OperandVector where
  | empty
  | angles (v : List Angle)
  | bytes (v : List Byte)
deriving DecidableEq, Repr

/-- A raw item, as its format carries it (30_encoding R80). -/
inductive Packet where
  /-- F-OP: a 12-bit control word with its operand vector (R89). -/
  | op (w : BitVec 12) (v : OperandVector)
  /-- One byte of the input stream, about to be taken by SEQ (R85). -/
  | wire (b : Byte)
  /-- F-FRAME: 23 bytes in transmission order (R81). -/
  | frame (v : FrameBytes)
  /-- F-RESP: a byte of TX_OUT (R84). -/
  | resp (b : Byte)
  /-- F-DRIVE: a drive code (R86), beside the operand vector of the operation that writes it. -/
  | drive (c : BitVec 4) (v : OperandVector)
  /-- F-CAUSE: a cause code (60_exceptions R220); for code 0 beside the operand vector of RESET. -/
  | cause (c : BitVec 4) (v : OperandVector)
deriving DecidableEq, Repr

/-- Why a packet is no instruction. -/
inductive DecodeError where
  /-- A non-zero IMM8 for an operation that takes none (30_encoding R91). -/
  | immNotZero
  /-- The operand vector does not have the shape of 30_encoding R90 (R91). -/
  | wrongShape
  /-- No byte is taken from RX_FIFO in this SEQ_STATE (30_encoding R85). -/
  | noWireContext
  /-- The first byte of a frame is not SYNC (30_encoding R81). -/
  | noSync
  /-- A byte that is never a response (30_encoding R84). -/
  | notAResponse
  /-- A drive code that is never emitted (30_encoding R87). -/
  | unusedDriveCode
  /-- A reserved cause code, 7 to 15 (60_exceptions R220). -/
  | reservedCause
deriving DecidableEq, Repr

/-! ## Field codes -/

/-- Drive codes (30_encoding R87). -/
def driveBits : DriveCode → BitVec 4
  | .reset => 0x0#4
  | .zero => 0x8#4
  | .softPos => 0x9#4
  | .softNeg => 0xD#4
  | .fullPos => 0x2#4
  | .fullNeg => 0x6#4

/-- Cause codes (60_exceptions R220). -/
def causeBits : Cause → BitVec 4
  | .none => 0#4
  | .protocolError => 1#4
  | .invalidArgument => 2#4
  | .streamClosed => 3#4
  | .cancelled => 4#4
  | .settleTimeout => 5#4
  | .rxOverrun => 6#4

/-! ## The decoder -/

/-- An operation that takes no operand vector. -/
def withNothing (v : OperandVector) (i : Instr) : Except DecodeError Instr :=
  match v with
  | .empty => .ok i
  | .angles _ => .error .wrongShape
  | .bytes _ => .error .wrongShape

/-- An operation that takes 18 angles. -/
def withAngles (v : OperandVector) (f : Angles → Instr) : Except DecodeError Instr :=
  match v with
  | .angles l =>
    if h : l.length = 18 then .ok (f ⟨l.toArray, by simpa using h⟩) else .error .wrongShape
  | .empty => .error .wrongShape
  | .bytes _ => .error .wrongShape

/-- An operation that takes 21 bytes. -/
def withBytes (v : OperandVector) (f : Payload → Instr) : Except DecodeError Instr :=
  match v with
  | .bytes l =>
    if h : l.length = 21 then .ok (f ⟨l.toArray, by simpa using h⟩) else .error .wrongShape
  | .empty => .error .wrongShape
  | .angles _ => .error .wrongShape

/-- An operation whose IMM8 must be 0x00 (30_encoding R89). -/
def immZero (imm : BitVec 8) (r : Except DecodeError Instr) : Except DecodeError Instr :=
  if imm = 0#8 then r else .error .immNotZero

/-- Operation words `{IMM8, OP}` (30_encoding R89, R90). The reserved codes are read as RESERVED,
which is refused when it is run (R91); their operand vector is not looked at. -/
def decodeOp (w : BitVec 12) (v : OperandVector) : Except DecodeError Instr :=
  let imm := w.extractLsb' 4 8
  match (w.extractLsb' 0 4).toNat with
  | 0 => immZero imm (withAngles v .reset)
  | 1 => withNothing v (.rxByte imm)
  | 2 => immZero imm (withNothing v .rxEos)
  | 3 => immZero imm (withNothing v .cancel)
  | 4 => immZero imm (withAngles v .tick)
  | 5 => immZero imm (withNothing v .timeTick)
  | 6 => withNothing v (.readReg imm)
  | 7 => immZero imm (withNothing v .snapshot)
  | 8 => immZero imm (withBytes v .encode)
  | 9 => .ok (.reserved9 imm)
  | 10 => .ok (.reservedAB imm 0#1)
  | 11 => .ok (.reservedAB imm 1#1)
  | 12 => .ok (.reservedCF imm 0#2)
  | 13 => .ok (.reservedCF imm 1#2)
  | 14 => .ok (.reservedCF imm 2#2)
  | _ => .ok (.reservedCF imm 3#2)

/-- How a wire byte is read depends on SEQ_STATE (30_encoding R85). -/
def decodeWire (st : SeqState) (b : Byte) : Except DecodeError Instr :=
  match st with
  | .hunt => if b = Machine.SYNC then .ok .wireSync else .ok (.wireGarbage b)
  | .payload => .ok (.wirePayload b)
  | .csum => .ok (.wireChecksum b)
  | .publish => .error .noWireContext
  | .flush => .error .noWireContext
  | .arm => .error .noWireContext
  | .wait => .error .noWireContext
  | .terminated => .error .noWireContext
  | .fault => .error .noWireContext

/-- A frame: SYNC, payload, checksum (30_encoding R81). The payload and the checksum may be any
bytes, as in the line `frame!` of R96. -/
def decodeFrame (v : FrameBytes) : Except DecodeError Instr :=
  if v[0] = Machine.SYNC then .ok (.frame (Vector.ofFn fun i => v[i.val + 1]) v[22])
  else .error .noSync

/-- Response bytes (30_encoding R84). -/
def decodeResp (b : Byte) : Except DecodeError Instr :=
  if b = Machine.ACK then .ok .ack
  else if b = Machine.NACK then .ok .nack
  else .error .notAResponse

/-- Drive codes (30_encoding R87). -/
def decodeDrive (c : BitVec 4) (v : OperandVector) : Except DecodeError Instr :=
  match c.toNat with
  | 0x0 => withAngles v .driveReset
  | 0x2 => withAngles v .driveFullPos
  | 0x6 => withAngles v .driveFullNeg
  | 0x8 => withAngles v .driveZero
  | 0x9 => withAngles v .driveSoftPos
  | 0xD => withAngles v .driveSoftNeg
  | _ => .error .unusedDriveCode

/-- Cause codes (60_exceptions R220). -/
def decodeCause (c : BitVec 4) (v : OperandVector) : Except DecodeError Instr :=
  match c.toNat with
  | 0 => withAngles v .causeNone
  | 1 => withNothing v .causeProtocolError
  | 2 => withNothing v .causeInvalidArgument
  | 3 => withNothing v .causeStreamClosed
  | 4 => withNothing v .causeCancelled
  | 5 => withNothing v .causeSettleTimeout
  | 6 => withNothing v .causeRxOverrun
  | _ => .error .reservedCause

/-- The decoder, total on every packet. `st` is the SEQ_STATE in which the packet is read; only wire
bytes depend on it (30_encoding R85). -/
def decode (st : SeqState) : Packet → Except DecodeError Instr
  | .op w v => decodeOp w v
  | .wire b => decodeWire st b
  | .frame v => decodeFrame v
  | .resp b => decodeResp b
  | .drive c v => decodeDrive c v
  | .cause c v => decodeCause c v

/-! ## The encoder -/

/-- The word `{IMM8, OP}` (30_encoding R90). -/
def opWord (op : BitVec 4) (imm : BitVec 8) : BitVec 12 := imm ++ op

/-- The 23 bytes of a frame with the given checksum byte (30_encoding R81). -/
def frameBytes (p : Payload) (cs : Byte) : FrameBytes :=
  Vector.ofFn fun i =>
    if i.val = 0 then Machine.SYNC else if h : i.val < 22 then p[i.val - 1] else cs

/-- The packet of an instruction. The internal SEQ steps have no encoding (30_encoding R92). -/
def encode : Instr → Option Packet
  | .reset init => some (.op (opWord 0x0#4 0#8) (.angles init.toList))
  | .rxByte b => some (.op (opWord 0x1#4 b) .empty)
  | .rxEos => some (.op (opWord 0x2#4 0#8) .empty)
  | .cancel => some (.op (opWord 0x3#4 0#8) .empty)
  | .tick cur => some (.op (opWord 0x4#4 0#8) (.angles cur.toList))
  | .timeTick => some (.op (opWord 0x5#4 0#8) .empty)
  | .readReg n => some (.op (opWord 0x6#4 n) .empty)
  | .snapshot => some (.op (opWord 0x7#4 0#8) .empty)
  | .encode p => some (.op (opWord 0x8#4 0#8) (.bytes p.toList))
  | .reserved9 imm => some (.op (opWord 0x9#4 imm) .empty)
  | .reservedAB imm low => some (.op (opWord (0x5#3 ++ low) imm) .empty)
  | .reservedCF imm low => some (.op (opWord (0x3#2 ++ low) imm) .empty)
  | .seqHuntDiscard => none
  | .seqSync => none
  | .seqPayload => none
  | .seqCsum => none
  | .seqEos => none
  | .seqPublish => none
  | .seqFlush => none
  | .seqArm => none
  | .seqAck => none
  | .seqCancel => none
  | .wireSync => some (.wire Machine.SYNC)
  | .wireGarbage b => some (.wire b)
  | .wirePayload b => some (.wire b)
  | .wireChecksum c => some (.wire c)
  | .frame p cs => some (.frame (frameBytes p cs))
  | .ack => some (.resp Machine.ACK)
  | .nack => some (.resp Machine.NACK)
  | .driveZero cur => some (.drive (driveBits .zero) (.angles cur.toList))
  | .driveSoftPos cur => some (.drive (driveBits .softPos) (.angles cur.toList))
  | .driveSoftNeg cur => some (.drive (driveBits .softNeg) (.angles cur.toList))
  | .driveFullPos cur => some (.drive (driveBits .fullPos) (.angles cur.toList))
  | .driveFullNeg cur => some (.drive (driveBits .fullNeg) (.angles cur.toList))
  | .driveReset init => some (.drive (driveBits .reset) (.angles init.toList))
  | .causeNone init => some (.cause (causeBits .none) (.angles init.toList))
  | .causeProtocolError => some (.cause (causeBits .protocolError) .empty)
  | .causeInvalidArgument => some (.cause (causeBits .invalidArgument) .empty)
  | .causeStreamClosed => some (.cause (causeBits .streamClosed) .empty)
  | .causeCancelled => some (.cause (causeBits .cancelled) .empty)
  | .causeSettleTimeout => some (.cause (causeBits .settleTimeout) .empty)
  | .causeRxOverrun => some (.cause (causeBits .rxOverrun) .empty)

/-- The SEQ_STATE in which an instruction's packet is read as that instruction (30_encoding R85);
HUNT for every packet that does not depend on it. -/
def readingState : Instr → SeqState
  | .wirePayload _ => .payload
  | .wireChecksum _ => .csum
  | _ => .hunt

/-! ## Words as the opcode table numbers them -/

/-- 18 zero angles: the operand vector of zeros. -/
def zeroAngles : Angles := Vector.replicate 18 .zero

/-- The operand vector of zeros of an operation word (30_encoding R90, log 14). -/
def zeroOperands (op : Nat) : OperandVector :=
  match op with
  | 0 => .angles zeroAngles.toList
  | 4 => .angles zeroAngles.toList
  | 8 => .bytes (List.replicate 21 0x00#8)
  | _ => .empty

/-- The packet of a table row's bits (log 13). Rows of 12 bits (16 in whole bytes) are operation
words, rows of 184 bits are frames. The rows of 8 and of 4 bits (8 in whole bytes) share one width:
0x30 and 0x31 are read as responses, the drive codes 0x0, 0x2, 0x6, 0x8, 0x9 and 0xD as drive codes,
the other codes up to 6 as cause codes, and every other byte as a wire byte. DESIGN CHOICE (log 13):
a frame is cut from its 184-bit word lowest byte first, so the first transmitted byte (SYNC) is bits
7..0 and byte `i` is bits 8i+7..8i; the spec gives the byte sequence only and no numeric word
(20_memory R54, 30_encoding R81). -/
def tablePacket (nbits w : Nat) : Option Packet :=
  if nbits = 12 ∨ nbits = 16 then
    if w < 4096 then some (.op (BitVec.ofNat 12 w) (zeroOperands (w % 16))) else none
  else if nbits = 184 then
    some (.frame (Vector.ofFn fun i => BitVec.ofNat 8 (w >>> (8 * i.val))))
  else if nbits = 4 ∨ nbits = 8 then
    if 256 ≤ w then none
    else if w = 0x30 ∨ w = 0x31 then some (.resp (BitVec.ofNat 8 w))
    else if w = 0x0 ∨ w = 0x2 ∨ w = 0x6 ∨ w = 0x8 ∨ w = 0x9 ∨ w = 0xD then
      some (.drive (BitVec.ofNat 4 w) (.angles zeroAngles.toList))
    else if w ≤ 6 then some (.cause (BitVec.ofNat 4 w) .empty)
    else some (.wire (BitVec.ofNat 8 w))
  else none

/-- The instruction the decoder reads from a table row's bits, in HUNT. -/
def decodeTableWord (nbits w : Nat) : Option Instr :=
  match tablePacket nbits w with
  | some p =>
    match decode .hunt p with
    | .ok i => some i
    | .error _ => none
  | none => none

end Sys2Proof
end

