-- ==== Sys2Proof/Machine/State.lean ====
section
/-! DEFINITION. The state of the block as plain data (10_state R20), the ways a step can stop, and
the state after reset. The block has no addressable memory (20_memory R50), so the state holds no
memory cells. -/

namespace Sys2Proof.Machine

/-- What a host operation returns to the host (00_scope R6, R10 `return v`). -/
inductive OpResult where
  /-- The operation returns nothing. -/
  | none
  /-- TICK: the 18 drive codes and the stopped bit (42_joint_servo R160). -/
  | tick (drive : Vector DriveCode 18) (stopped : Bool)
  /-- READ_REG of a register that holds a natural number (43_handshake R206). -/
  | nat (n : Nat)
  /-- READ_REG of a register that holds an Angle (43_handshake R206). -/
  | angle (a : Angle)
  /-- SNAPSHOT: the 18 targets (43_handshake R207). -/
  | snapshot (t : Angles)
  /-- ENCODE: the 23 frame bytes (40_frame_codec R117). -/
  | encoded (f : FrameBytes)
  /-- ENCODE: InvalidArgument with the least offending index (40_frame_codec R117). -/
  | invalidArgument (index : Nat)
deriving DecidableEq, Repr

/-- One turn of the schedule (00_scope R4, R5; log 3). -/
inductive Turn where
  /-- The SEQ agent moves; with a name, the step of that name (30_encoding R95), which must be the
  enabled one. -/
  | seq (name : Option SeqStep)
  /-- A packet is decoded and run. -/
  | packet (p : Packet)
deriving DecidableEq, Repr

/-- The reasons a step stops the machine. The spec's own FAULT is no such reason: it is the
SEQ_STATE `fault`, entered by a next state (60_exceptions R226). -/
inductive Fault where
  /-- Raised by the scheduler when SEQ is to move and no SEQ step is enabled (00_scope R6 "stuck",
  43_handshake R193). Safe: the block waits there, it does nothing else. -/
  | stuck
deriving DecidableEq, Repr

/-- The reasons an instruction is refused (00_scope R6). -/
inductive Refusal where
  /-- Raised by exec's arms for an instruction that has no meaning yet. Safe. -/
  | notModelled (mnemonic : String)
  /-- Raised by RESERVED: an operation word with OP 0x9..0xF (30_encoding R91). Safe: the spec
  refuses it. -/
  | reservedOp
  /-- Raised by the scheduler for a packet that decodes to no instruction (30_encoding R91). Safe:
  the spec refuses the word. -/
  | illFormed (e : DecodeError)
  /-- Raised by RX_BYTE and FRAME after RX_EOS (40_frame_codec R110, R115). Safe: the spec refuses
  it. -/
  | rxAfterEos
  /-- Raised by RESET and TICK, and the rows that name events of theirs, for an operand that is a NaN
  or an infinity (42_joint_servo R160, 70_reset R250). Safe: the spec refuses it. -/
  | nonFiniteAngle
  /-- Raised by the same for an operand that is no Angle of the build's instance, such as a number
  binary64 cannot hold (30_encoding R91; log 11). Safe: no host can send it. -/
  | angleNotInInstance
  /-- Raised by a SEQ step, a wire byte or an event row in a state where that step is not enabled
  (30_encoding R95, 43_handshake R180; log 6, log 12). Safe: the block takes no such step. -/
  | notEnabled
  /-- Raised by the scheduler for anything but RESET before the first RESET (70_reset R251). Safe:
  the spec gives it no meaning. -/
  | beforeReset
deriving DecidableEq, Repr

/-- The state (10_state R20), and four fields of the model's own at its head. -/
structure State where
  /-- The configuration of the build, which no step writes (20_memory R57; log 2). -/
  cfg : Config
  /-- A first RESET has happened (70_reset R251; log 4). -/
  launched : Bool
  /-- What the last host operation returned (00_scope R6; log 5). -/
  result : OpResult
  /-- The turns still to be taken (00_scope R4; log 3). -/
  schedule : List Turn
  /-- SEQ_STATE (R21). -/
  seqState : SeqState
  /-- RX_IDX (R22). -/
  rxIdx : BitVec 5
  /-- RX_SUM (R23). -/
  rxSum : Byte
  /-- FRAME[0..20] (R24). -/
  frame : Payload
  /-- RX_FIFO, head first (R25). -/
  rxFifo : List Byte
  /-- RX_OVERRUN (R26). -/
  rxOverrun : Bool
  /-- EOS_LATCH (R27). -/
  eosLatch : Bool
  /-- CANCEL_LATCH (R28). -/
  cancelLatch : Bool
  /-- AWAITING (R29). -/
  awaiting : Bool
  /-- TIMER (R30; log 17). -/
  timer : Nat
  /-- CAUSE (R31). -/
  cause : Cause
  /-- TARGET[0..17] (R32). -/
  target : Angles
  /-- ZERO[0..17] (R33). -/
  zero : Angles
  /-- SETTLED[0..17] (R34). -/
  settled : Vector Bool 18
  /-- MOVING (R35). -/
  moving : Bool
  /-- DRIVE_OUT[0..17] (R36). -/
  driveOut : Vector DriveCode 18
  /-- TX_OUT, oldest first (R36). -/
  txOut : List Byte
  /-- LOG_OUT, oldest first (R36). -/
  logOut : List Cause
deriving DecidableEq, Repr

/-- The machine right after `reset 0` (70_reset R250, R252): every register at the value R250 gives,
ZERO at the operand, here 18 zeros (log 15), in the configuration of the test vectors (log 2). -/
def State.reset : State where
  cfg := testInstance
  launched := true
  result := .none
  schedule := []
  seqState := .hunt
  rxIdx := 0#5
  rxSum := 0x00#8
  frame := Vector.replicate 21 0x00#8
  rxFifo := []
  rxOverrun := false
  eosLatch := false
  cancelLatch := false
  awaiting := false
  timer := 0
  cause := .none
  target := Vector.replicate 18 .zero
  zero := Vector.replicate 18 .zero
  settled := Vector.replicate 18 false
  moving := true
  driveOut := Vector.replicate 18 .reset
  txOut := []
  logOut := []

end Sys2Proof.Machine
end

