-- ==== Sys2Proof/Machine/Ops.lean ====
section
/-! DEFINITION. The named operations over the state that the meanings share: the pseudocode
primitives of 00_scope R10, recording a cause and taking a fault (60_exceptions R220, R226), and the
effects of the decoder and handshake steps. -/

namespace Sys2Proof.Machine

/-- The outcome of a meaning. -/
abbrev Out := Host.Outcome State Fault Refusal

/-! ## Primitives (00_scope R10) -/

/-- `SEQ_STATE <- q`. -/
def setSeq (q : SeqState) (s : State) : State := { s with seqState := q }

/-- RX_FIFO becomes `f`: what is left after FifoPop, or empty after FifoClear. -/
def setFifo (f : List Byte) (s : State) : State := { s with rxFifo := f }

/-- `TxEmit(b)`. -/
def txEmit (b : Byte) (s : State) : State := { s with txOut := s.txOut ++ [b] }

/-- `return v` to the host. -/
def setResult (r : OpResult) (s : State) : State := { s with result := r }

/-- Recording a cause: CAUSE is written and the code appended to LOG_OUT (60_exceptions R220). -/
def recordCause (c : Cause) (s : State) : State := { s with cause := c, logOut := s.logOut ++ [c] }

/-- TAKING A FAULT: `raise Fault(c)` (00_scope R10, 60_exceptions R226). The cause is recorded and
SEQ_STATE becomes FAULT; nothing else is saved (R231). No return exists: only RESET leaves FAULT
(R233). -/
def raiseFault (c : Cause) (s : State) : State := setSeq .fault (recordCause c s)

/-- Recording a cause that ends the sequencer's run cleanly (60_exceptions R223, R224). -/
def terminate (c : Cause) (s : State) : State := setSeq .terminated (recordCause c s)

/-- Recording a cause that is answered with NACK and resumes at HUNT (60_exceptions R221, R225). -/
def nackAndHunt (c : Cause) (s : State) : State := setSeq .hunt (txEmit NACK (recordCause c s))

/-- A step taken when it is enabled, refused by name when it is not (30_encoding R95). -/
def whenEnabled (enabled : Bool) (t : State) : Out :=
  if enabled then .next t else .refused .notEnabled

/-! ## Byte input (40_frame_codec R110, R115) -/

/-- The effect of RX_BYTE: the byte is queued, or lost with code 6 when RX_FIFO is full (R110). -/
def pushByte (b : Byte) (s : State) : State :=
  if s.rxFifo.length < s.cfg.rxFifoDepth then setFifo (s.rxFifo ++ [b]) s
  else recordCause .rxOverrun { s with rxOverrun := true }

/-! ## Decoder effects (40_frame_codec R112 to R114, R116) -/

/-- SEQ_SYNC: a frame starts (R112). `rest` is RX_FIFO after FifoPop. -/
def takeSync (rest : List Byte) (s : State) : State :=
  setSeq .payload { s with rxFifo := rest, rxIdx := 0#5, rxSum := 0x00#8 }

/-- `FRAME[RX_IDX] <- b`; the indices 21..31 address nothing (20_memory R51). -/
def storeFrame (b : Byte) (s : State) : Payload := s.frame.setIfInBounds s.rxIdx.toNat b

/-- SEQ_PAYLOAD: one payload byte is stored and summed (R113). -/
def takePayload (b : Byte) (rest : List Byte) (s : State) : State :=
  { s with
    rxFifo := rest
    frame := storeFrame b s
    rxSum := s.rxSum + b
    rxIdx := s.rxIdx + 1#5
    seqState := if s.rxIdx + 1#5 = 21#5 then .csum else s.seqState }

/-- SEQ_CSUM: the received checksum `c` is compared first, then the payload is checked for sentinels
(R114). -/
def judgeFrame (c : Byte) (rest : List Byte) (s : State) : State :=
  let s := setFifo rest s
  if c ≠ s.rxSum then nackAndHunt .protocolError s
  else if hasSentinel s.frame then raiseFault .invalidArgument s
  else setSeq .publish s

/-- SEQ_EOS: the stream is closed (R116). -/
def closeStream (s : State) : State := terminate .streamClosed s

/-! ## Handshake effects (43_handshake R181 to R188, R203) -/

/-- The converted targets of the frame held in FRAME (R181). -/
def convertedTargets (s : State) : Angles :=
  Vector.ofFn fun j =>
    convert s.cfg (legOfJoint j) (artOfJoint j)
      s.frame[servoIndex s.cfg (legOfJoint j) (artOfJoint j)]

/-- SEQ_PUBLISH: all 18 targets in one step (R181). -/
def publishTargets (s : State) : State := setSeq .flush { s with target := convertedTargets s }

/-- SEQ_FLUSH: every byte held now is discarded (R184). -/
def flushInput (s : State) : State := setSeq .arm (setFifo [] s)

/-- SEQ_ARM: the settle wait starts (R185). -/
def armWait (s : State) : State :=
  setSeq .wait { s with awaiting := true, timer := timeoutTicks s.cfg }

/-- SEQ_ACK (R186). -/
def acknowledge (s : State) : State := setSeq .hunt (txEmit ACK s)

/-- SEQ_CANCEL (R188). -/
def cancelSequencer (s : State) : State := terminate .cancelled s

/-- One TIME_TICK of an armed wait (R203): TIMER counts down, and at 0 the wait expires. -/
def countDown (s : State) : State :=
  let s := { s with timer := s.timer - 1 }
  if s.timer = 0 then nackAndHunt .settleTimeout s else s

/-! ## RESET (70_reset_and_hazards R250) -/

/-- The state RESET leaves (R250): every register of 10_state R20. The configuration is not changed
(20_memory R57), and the schedule is the host's. -/
def resetTo (init : Angles) (s : State) : State :=
  { cfg := s.cfg
    launched := true
    result := .none
    schedule := s.schedule
    seqState := .hunt
    rxIdx := 0#5
    rxSum := 0x00#8
    frame := Vector.replicate 21 0x00#8
    rxFifo := []
    rxOverrun := false
    eosLatch := false
    cancelLatch := false
    awaiting := false
    timer := 0
    cause := .none
    target := Vector.replicate 18 .zero
    zero := init
    settled := Vector.replicate 18 false
    moving := true
    driveOut := Vector.replicate 18 .reset
    txOut := []
    logOut := [] }

end Sys2Proof.Machine
end

