-- ==== Sys2Proof/Machine/Operands.lean ====
section
/-! DEFINITION. Operand forms: the angle vectors of RESET and TICK, the payload of ENCODE, and the
register numbers of READ_REG. -/

namespace Sys2Proof.Machine

/-- Why a vector of angles is refused, if it is: an operand that is a NaN or an infinity (42 R160,
70 R250), or one that is no Angle of the build's instance (log 11). -/
def angleRefusal (k : ArithKind) (v : Angles) : Option Refusal :=
  if v.toList.all isNumber then
    if v.toList.all (isAngleOf k) then none else some .angleNotInInstance
  else some .nonFiniteAngle

/-- An operation on 18 angles, refused when they are not finite Angles of the instance. -/
def withCheckedAngles (k : ArithKind) (v : Angles) (r : Out) : Out :=
  match angleRefusal k v with
  | none => r
  | some e => .refused e

/-- The result of ENCODE (40_frame_codec R117): the frame, or InvalidArgument with the least index
that holds a sentinel. -/
def encodeResult (p : Payload) : OpResult :=
  match p.toList.findIdx? isSentinel with
  | some k => .invalidArgument k
  | none => .encoded (frameBytes p (checksum p))

end Sys2Proof.Machine
end

