-- ==== Sys2Proof/Machine/Flags.lean ====
section
/-! DEFINITION. Status and flags: MOVING and the stop transition (42_joint_servo R163, R164), the
STATUS word and the observation map (10_state R40, R41), and the conditions that enable the
sequencer's steps (43_handshake R180). -/

namespace Sys2Proof.Machine

/-- `OR over j of NOT SETTLED[j]` (42_joint_servo R163). -/
def anyUnsettled (v : Vector Bool 18) : Bool := v.toList.any (!·)

/-- The code of a SEQ_STATE (10_state R21). -/
def seqBits : SeqState → BitVec 4
  | .hunt => 0#4
  | .payload => 1#4
  | .csum => 2#4
  | .publish => 3#4
  | .flush => 4#4
  | .arm => 5#4
  | .wait => 6#4
  | .terminated => 7#4
  | .fault => 8#4

/-- One bit. -/
def bit (b : Bool) : BitVec 1 := if b then 1#1 else 0#1

/-- STATUS (10_state R41), from CAUSE in bits 15..12 down to SEQ_STATE in bits 3..0. -/
def statusWord (s : State) : BitVec 16 :=
  causeBits s.cause ++ 0#3 ++ bit s.rxOverrun ++ bit s.eosLatch ++ bit s.cancelLatch
    ++ bit s.moving ++ bit s.awaiting ++ seqBits s.seqState

/-- SETTLED_VEC: bit j is SETTLED[j] (10_state R40). -/
def settledVec (v : Vector Bool 18) : Nat :=
  v.toList.foldr (fun b acc => 2 * acc + (if b then 1 else 0)) 0

/-- The value READ_REG returns for register `n` (10_state R40). Numbers not in the map read as 0. -/
def registerValue (s : State) (n : BitVec 8) : OpResult :=
  if n = 0x00#8 then .nat (statusWord s).toNat
  else if n = 0x01#8 then .nat s.rxIdx.toNat
  else if n = 0x02#8 then .nat s.rxSum.toNat
  else if n = 0x03#8 then .nat (BitVec.ofNat 16 s.timer).toNat
  else if n = 0x04#8 then .nat (settledVec s.settled)
  else if n = 0x05#8 then .nat s.rxFifo.length
  else if h : 0x10 ≤ n.toNat ∧ n.toNat ≤ 0x21 then
    .nat (driveBits s.driveOut[n.toNat - 0x10]).toNat
  else if h : 0x40 ≤ n.toNat ∧ n.toNat ≤ 0x51 then .angle s.target[n.toNat - 0x40]
  else if h : 0x60 ≤ n.toNat ∧ n.toNat ≤ 0x71 then .angle s.zero[n.toNat - 0x60]
  else if h : 0x80 ≤ n.toNat ∧ n.toNat ≤ 0x94 then .nat s.frame[n.toNat - 0x80].toNat
  else .nat 0

/-! ## Enabling conditions -/

/-- SEQ reads in state `q`, and no cancellation is latched (40_frame_codec, introduction). -/
def reading (q : SeqState) (s : State) : Bool := s.seqState == q && !s.cancelLatch

/-- SEQ_STATE is one of the reading states HUNT, PAYLOAD and CSUM. -/
def isReadState (s : State) : Bool :=
  s.seqState == .hunt || s.seqState == .payload || s.seqState == .csum

/-- SEQ_EOS is enabled (40_frame_codec R116). -/
def eosDue (s : State) : Bool :=
  isReadState s && !s.cancelLatch && s.eosLatch && s.rxFifo.isEmpty

/-- SEQ_CANCEL is enabled (43_handshake R188). -/
def cancelDue (s : State) : Bool := (isReadState s || s.seqState == .wait) && s.cancelLatch

/-- SEQ_ACK is enabled (43_handshake R186). -/
def ackDue (s : State) : Bool := s.seqState == .wait && !s.cancelLatch && !s.awaiting

/-- The wait is armed: TIME_TICK counts (43_handshake R203). -/
def armedWait (s : State) : Bool := s.seqState == .wait && !s.cancelLatch && s.awaiting

/-- The next TIME_TICK expires the wait (43_handshake R203). -/
def expiryDue (s : State) : Bool := armedWait s && decide (s.timer - 1 = 0)

/-- An RX_BYTE now would find RX_FIFO full (40_frame_codec R110). -/
def overrunDue (s : State) : Bool :=
  !s.eosLatch && decide (¬ s.rxFifo.length < s.cfg.rxFifoDepth)

/-- The SEQ step that is enabled, if one is: the transition table of 43_handshake R180. -/
def enabledStep (s : State) : Option SeqStep :=
  match s.seqState with
  | .hunt =>
    if s.cancelLatch then some .cancel
    else match s.rxFifo with
      | b :: _ => if b = SYNC then some .sync else some .huntDiscard
      | [] => if s.eosLatch then some .eos else none
  | .payload =>
    if s.cancelLatch then some .cancel
    else match s.rxFifo with
      | _ :: _ => some .payload
      | [] => if s.eosLatch then some .eos else none
  | .csum =>
    if s.cancelLatch then some .cancel
    else match s.rxFifo with
      | _ :: _ => some .csum
      | [] => if s.eosLatch then some .eos else none
  | .publish => some .publish
  | .flush => some .flush
  | .arm => some .arm
  | .wait =>
    if s.cancelLatch then some .cancel
    else if s.awaiting then none
    else some .ack
  | .terminated => none
  | .fault => none

end Sys2Proof.Machine
end

