-- ==== Sys2Proof/Machine/Codec.lean ====
section
/-! DEFINITION. The frame codec: RX_BYTE, RX_EOS, ENCODE and the decoder's SEQ steps
(40_frame_codec), and RESERVED operation words (30_encoding R91). -/

namespace Sys2Proof.Machine

/-- RX_BYTE (R110). After RX_EOS it is refused (R115). -/
def execRxByte (b : Byte) (s : State) : Out :=
  if s.eosLatch then .refused .rxAfterEos else .next (setResult .none (pushByte b s))

/-- RX_EOS (R115). -/
def execRxEos (s : State) : Out := .next (setResult .none { s with eosLatch := true })

/-- ENCODE (R117): a pure function of its operand; only the result is returned. -/
def execEncode (p : Payload) (s : State) : Out := .next (setResult (encodeResult p) s)

/-- SEQ_HUNT_DISCARD (R111). -/
def execSeqHuntDiscard (s : State) : Out :=
  match s.rxFifo with
  | [] => .refused .notEnabled
  | b :: rest => whenEnabled (reading .hunt s && b != SYNC) (setFifo rest s)

/-- SEQ_SYNC (R112). -/
def execSeqSync (s : State) : Out :=
  match s.rxFifo with
  | [] => .refused .notEnabled
  | b :: rest => whenEnabled (reading .hunt s && b == SYNC) (takeSync rest s)

/-- SEQ_PAYLOAD (R113). -/
def execSeqPayload (s : State) : Out :=
  match s.rxFifo with
  | [] => .refused .notEnabled
  | b :: rest => whenEnabled (reading .payload s) (takePayload b rest s)

/-- SEQ_CSUM (R114). -/
def execSeqCsum (s : State) : Out :=
  match s.rxFifo with
  | [] => .refused .notEnabled
  | c :: rest => whenEnabled (reading .csum s) (judgeFrame c rest s)

/-- SEQ_EOS (R116). -/
def execSeqEos (s : State) : Out := whenEnabled (eosDue s) (closeStream s)

/-- RESERVED, OP 0x9: refused (30_encoding R91). -/
def execReserved9 (_imm : BitVec 8) (_s : State) : Out := .refused .reservedOp

/-- RESERVED, OP 0xA and 0xB: refused (30_encoding R91). -/
def execReservedAB (_imm : BitVec 8) (_low : BitVec 1) (_s : State) : Out := .refused .reservedOp

/-- RESERVED, OP 0xC to 0xF: refused (30_encoding R91). -/
def execReservedCF (_imm : BitVec 8) (_low : BitVec 2) (_s : State) : Out := .refused .reservedOp

end Sys2Proof.Machine
end

