-- ==== Sys2Proof/Machine/Handshake.lean ====
section
/-! DEFINITION. The command handshake sequencer after a frame is accepted, the timeout counter,
cancellation and observation (43_handshake), and RESET (70_reset_and_hazards R250). -/

namespace Sys2Proof.Machine

/-- RESET (70_reset R250). -/
def execReset (init : Angles) (s : State) : Out :=
  withCheckedAngles s.cfg.arith init (.next (resetTo init s))

/-- CANCEL (R187). -/
def execCancel (s : State) : Out := .next (setResult .none { s with cancelLatch := true })

/-- TIME_TICK (R203); outside an armed wait it changes nothing (R200). -/
def execTimeTick (s : State) : Out :=
  .next (setResult .none (if armedWait s then countDown s else s))

/-- READ_REG (R206). -/
def execReadReg (n : BitVec 8) (s : State) : Out := .next (setResult (registerValue s n) s)

/-- SNAPSHOT (R207). -/
def execSnapshot (s : State) : Out := .next (setResult (.snapshot s.target) s)

/-- SEQ_PUBLISH (R181), enabled whatever CANCEL_LATCH is. -/
def execSeqPublish (s : State) : Out := whenEnabled (s.seqState == .publish) (publishTargets s)

/-- SEQ_FLUSH (R184), enabled whatever CANCEL_LATCH is. -/
def execSeqFlush (s : State) : Out := whenEnabled (s.seqState == .flush) (flushInput s)

/-- SEQ_ARM (R185), enabled whatever CANCEL_LATCH is. -/
def execSeqArm (s : State) : Out := whenEnabled (s.seqState == .arm) (armWait s)

/-- SEQ_ACK (R186). -/
def execSeqAck (s : State) : Out := whenEnabled (ackDue s) (acknowledge s)

/-- SEQ_CANCEL (R188). -/
def execSeqCancel (s : State) : Out := whenEnabled (cancelDue s) (cancelSequencer s)

end Sys2Proof.Machine
end

