-- ==== Sys2Proof/Machine/Servo.lean ====
section
/-! DEFINITION. The per-joint servo command state machine: TICK (42_joint_servo). -/

namespace Sys2Proof.Machine

/-- What the engine answers for joint `j` at the measured angles `cur` (R160). -/
def jointEval (cur : Angles) (s : State) (j : Joint) : AngleEval :=
  angleEval s.cfg.arith cur[j] s.zero[j] s.target[j]

/-- The body of TICK's loop for joint `j` (R160 to R164), on the state and the `stopped` bit:
SETTLED[j] and DRIVE_OUT[j] are written, MOVING is recomputed, and its change from 1 to 0 clears
AWAITING and sets `stopped`. -/
def updateJoint (cur : Angles) (acc : State × Bool) (j : Joint) : State × Bool :=
  let s := acc.1
  let r := jointEval cur s j
  let settled := s.settled.set j r.settled
  let m := anyUnsettled settled
  let stop := s.moving && !m
  ({ s with
      settled := settled
      driveOut := s.driveOut.set j (driveCode r.tier r.dir)
      awaiting := if stop then false else s.awaiting
      moving := m },
    acc.2 || stop)

/-- The whole TICK (R160): joints 0 to 17 in order (R162). -/
def tickJoints (cur : Angles) (s : State) : State × Bool :=
  (List.finRange 18).foldl (updateJoint cur) (s, false)

/-- The state after a TICK, with its result (R160). -/
def tickTo (cur : Angles) (s : State) : State :=
  let (t, stopped) := tickJoints cur s
  setResult (.tick t.driveOut stopped) t

/-- TICK (R160). It is enabled in every state (R170). -/
def execTick (cur : Angles) (s : State) : Out :=
  withCheckedAngles s.cfg.arith cur (.next (tickTo cur s))

end Sys2Proof.Machine
end

