-- ==== Sys2Proof/Machine/Events.lean ====
section
/-! DEFINITION. The opcode table's rows that are no operations: wire bytes, the frame, responses,
drive codes and cause codes. Each names an event of the block, and running it is the block's own
step in which that event occurs: enabled when the event is what that step does now, refused
otherwise (log 6, log 7, log 8). No row adds a behaviour the operations and SEQ steps do not have. -/

namespace Sys2Proof.Machine

/-! ## Wire bytes (30_encoding R85): the byte at the head of RX_FIFO, as SEQ takes it -/

/-- WIRE_SYNC: 0xFF is taken in HUNT (R112). -/
def execWireSync (s : State) : Out :=
  match s.rxFifo with
  | [] => .refused .notEnabled
  | b :: rest => whenEnabled (reading .hunt s && b == SYNC) (takeSync rest s)

/-- WIRE_GARBAGE: another byte is taken in HUNT (R111). -/
def execWireGarbage (g : Byte) (s : State) : Out :=
  match s.rxFifo with
  | [] => .refused .notEnabled
  | b :: rest => whenEnabled (reading .hunt s && b == g && b != SYNC) (setFifo rest s)

/-- WIRE_PAYLOAD: a byte is taken in PAYLOAD (R113). -/
def execWirePayload (p : Byte) (s : State) : Out :=
  match s.rxFifo with
  | [] => .refused .notEnabled
  | b :: rest => whenEnabled (reading .payload s && b == p) (takePayload b rest s)

/-- WIRE_CHECKSUM: a byte is taken in CSUM (R114). -/
def execWireChecksum (c : Byte) (s : State) : Out :=
  match s.rxFifo with
  | [] => .refused .notEnabled
  | b :: rest => whenEnabled (reading .csum s && b == c) (judgeFrame b rest s)

/-! ## The frame (30_encoding R81, R96) -/

/-- FRAME: the 23 bytes are delivered one after another, each as RX_BYTE does (R96, R110). -/
def execFrame (p : Payload) (cs : Byte) (s : State) : Out :=
  if s.eosLatch then .refused .rxAfterEos
  else .next (setResult .none ((frameBytes p cs).toList.foldl (fun t b => pushByte b t) s))

/-! ## Responses (30_encoding R84) -/

/-- The head byte of RX_FIFO is a checksum that SEQ_CSUM will find wrong (40_frame_codec R114). -/
def mismatchDue (s : State) : Bool :=
  match s.rxFifo with
  | [] => false
  | c :: _ => reading .csum s && c != s.rxSum

/-- The head byte of RX_FIFO is a right checksum of a frame with a sentinel (40_frame_codec R114). -/
def sentinelDue (s : State) : Bool :=
  match s.rxFifo with
  | [] => false
  | c :: _ => reading .csum s && c == s.rxSum && hasSentinel s.frame

/-- ACK: SEQ_ACK emits 0x31 (43_handshake R186). -/
def execAck (s : State) : Out := whenEnabled (ackDue s) (acknowledge s)

/-- NACK: SEQ_CSUM emits 0x30 on a mismatch (40_frame_codec R114), TIME_TICK on expiry (43_handshake
R203). No state is due for both. -/
def execNack (s : State) : Out :=
  if mismatchDue s then .next (nackAndHunt .protocolError (setFifo s.rxFifo.tail s))
  else whenEnabled (expiryDue s) (setResult .none (countDown s))

/-! ## Drive codes (30_encoding R87) -/

/-- The TICK with operands `cur`, when it emits the code `d` for some joint. -/
def tickEmitting (d : DriveCode) (cur : Angles) (s : State) : Out :=
  withCheckedAngles s.cfg.arith cur
    (whenEnabled ((tickTo cur s).driveOut.toList.contains d) (tickTo cur s))

/-- DRIVE_ZERO: a TICK emits 0x8. -/
def execDriveZero (cur : Angles) (s : State) : Out := tickEmitting .zero cur s

/-- DRIVE_SOFT_POS: a TICK emits 0x9. -/
def execDriveSoftPos (cur : Angles) (s : State) : Out := tickEmitting .softPos cur s

/-- DRIVE_SOFT_NEG: a TICK emits 0xD. -/
def execDriveSoftNeg (cur : Angles) (s : State) : Out := tickEmitting .softNeg cur s

/-- DRIVE_FULL_POS: a TICK emits 0x2. -/
def execDriveFullPos (cur : Angles) (s : State) : Out := tickEmitting .fullPos cur s

/-- DRIVE_FULL_NEG: a TICK emits 0x6. -/
def execDriveFullNeg (cur : Angles) (s : State) : Out := tickEmitting .fullNeg cur s

/-- DRIVE_RESET: RESET sets every DRIVE_OUT to 0x0, and nothing else does (R87). -/
def execDriveReset (init : Angles) (s : State) : Out :=
  withCheckedAngles s.cfg.arith init (.next (resetTo init s))

/-! ## Cause codes (60_exceptions R220) -/

/-- CAUSE_NONE: RESET sets CAUSE to 0, and nothing else does (R220). -/
def execCauseNone (init : Angles) (s : State) : Out :=
  withCheckedAngles s.cfg.arith init (.next (resetTo init s))

/-- CAUSE_PROTOCOL_ERROR: SEQ_CSUM finds a checksum that differs (R221). -/
def execCauseProtocolError (s : State) : Out :=
  whenEnabled (mismatchDue s) (nackAndHunt .protocolError (setFifo s.rxFifo.tail s))

/-- CAUSE_INVALID_ARGUMENT: SEQ_CSUM finds a sentinel in a frame whose checksum matches, and faults
(R222 (a), R226). -/
def execCauseInvalidArgument (s : State) : Out :=
  whenEnabled (sentinelDue s) (raiseFault .invalidArgument (setFifo s.rxFifo.tail s))

/-- CAUSE_STREAM_CLOSED: SEQ_EOS (R223). -/
def execCauseStreamClosed (s : State) : Out := whenEnabled (eosDue s) (closeStream s)

/-- CAUSE_CANCELLED: SEQ_CANCEL (R224). -/
def execCauseCancelled (s : State) : Out := whenEnabled (cancelDue s) (cancelSequencer s)

/-- CAUSE_SETTLE_TIMEOUT: a TIME_TICK expires the wait (R225). -/
def execCauseSettleTimeout (s : State) : Out :=
  whenEnabled (expiryDue s) (setResult .none (countDown s))

/-- CAUSE_RX_OVERRUN: an RX_BYTE finds RX_FIFO full; the byte is lost, so which one it is makes no
difference (R227). -/
def execCauseRxOverrun (s : State) : Out :=
  whenEnabled (overrunDue s) (setResult .none (recordCause .rxOverrun { s with rxOverrun := true }))

end Sys2Proof.Machine
end

