-- ==== Sys2Proof/Machine/Dispatch.lean ====
section
/-! DEFINITION. One arm per constructor of Instr, each a direct call of its meaning. -/

namespace Sys2Proof.Machine

def exec (i : Instr) (s : State) : Host.Outcome State Fault Refusal :=
  match i with
  | .reset init => Sys2Proof.Machine.execReset init s
  | .rxByte b => Sys2Proof.Machine.execRxByte b s
  | .rxEos => Sys2Proof.Machine.execRxEos s
  | .cancel => Sys2Proof.Machine.execCancel s
  | .tick cur => Sys2Proof.Machine.execTick cur s
  | .timeTick => Sys2Proof.Machine.execTimeTick s
  | .readReg n => Sys2Proof.Machine.execReadReg n s
  | .snapshot => Sys2Proof.Machine.execSnapshot s
  | .encode p => Sys2Proof.Machine.execEncode p s
  | .reserved9 imm => Sys2Proof.Machine.execReserved9 imm s
  | .reservedAB imm low => Sys2Proof.Machine.execReservedAB imm low s
  | .reservedCF imm low => Sys2Proof.Machine.execReservedCF imm low s
  | .seqHuntDiscard => Sys2Proof.Machine.execSeqHuntDiscard s
  | .seqSync => Sys2Proof.Machine.execSeqSync s
  | .seqPayload => Sys2Proof.Machine.execSeqPayload s
  | .seqCsum => Sys2Proof.Machine.execSeqCsum s
  | .seqEos => Sys2Proof.Machine.execSeqEos s
  | .seqPublish => Sys2Proof.Machine.execSeqPublish s
  | .seqFlush => Sys2Proof.Machine.execSeqFlush s
  | .seqArm => Sys2Proof.Machine.execSeqArm s
  | .seqAck => Sys2Proof.Machine.execSeqAck s
  | .seqCancel => Sys2Proof.Machine.execSeqCancel s
  | .wireSync => Sys2Proof.Machine.execWireSync s
  | .wireGarbage b => Sys2Proof.Machine.execWireGarbage b s
  | .wirePayload b => Sys2Proof.Machine.execWirePayload b s
  | .wireChecksum c => Sys2Proof.Machine.execWireChecksum c s
  | .frame p cs => Sys2Proof.Machine.execFrame p cs s
  | .ack => Sys2Proof.Machine.execAck s
  | .nack => Sys2Proof.Machine.execNack s
  | .driveZero cur => Sys2Proof.Machine.execDriveZero cur s
  | .driveSoftPos cur => Sys2Proof.Machine.execDriveSoftPos cur s
  | .driveSoftNeg cur => Sys2Proof.Machine.execDriveSoftNeg cur s
  | .driveFullPos cur => Sys2Proof.Machine.execDriveFullPos cur s
  | .driveFullNeg cur => Sys2Proof.Machine.execDriveFullNeg cur s
  | .driveReset init => Sys2Proof.Machine.execDriveReset init s
  | .causeNone init => Sys2Proof.Machine.execCauseNone init s
  | .causeProtocolError => Sys2Proof.Machine.execCauseProtocolError s
  | .causeInvalidArgument => Sys2Proof.Machine.execCauseInvalidArgument s
  | .causeStreamClosed => Sys2Proof.Machine.execCauseStreamClosed s
  | .causeCancelled => Sys2Proof.Machine.execCauseCancelled s
  | .causeSettleTimeout => Sys2Proof.Machine.execCauseSettleTimeout s
  | .causeRxOverrun => Sys2Proof.Machine.execCauseRxOverrun s

end Sys2Proof.Machine
end

