-- ==== Sys2Proof/Machine/Schedule.lean ====
section
/-! DEFINITION. Who moves next (00_scope R4, R5): turns of the schedule, the SEQ agent's own move,
and placing a packet as the next turn. -/

namespace Sys2Proof.Machine

/-- The instruction of a named SEQ step (30_encoding R92). -/
def seqInstr : SeqStep → Instr
  | .huntDiscard => .seqHuntDiscard
  | .sync => .seqSync
  | .payload => .seqPayload
  | .csum => .seqCsum
  | .eos => .seqEos
  | .publish => .seqPublish
  | .flush => .seqFlush
  | .arm => .seqArm
  | .ack => .seqAck
  | .cancel => .seqCancel

/-- RESET, or a row that names an event of RESET. -/
def isReset : Instr → Bool
  | .reset _ => true
  | .driveReset _ => true
  | .causeNone _ => true
  | _ => false

/-- Before the first RESET only RESET has a meaning (70_reset R251). -/
def runLaunched (i : Instr) (s : State) : Out :=
  if s.launched || isReset i then exec i s else .refused .beforeReset

/-- The SEQ agent's move: its one enabled step, or stuck (43_handshake R180, 00_scope R6). -/
def seqMove (s : State) : Out :=
  if s.launched then
    match enabledStep s with
    | some k => exec (seqInstr k) s
    | none => .fault .stuck
  else .refused .beforeReset

/-- One turn: the SEQ agent's move, a named SEQ step, or a packet that is decoded and run. -/
def takeTurn (t : Turn) (s : State) : Out :=
  match t with
  | .seq none => seqMove s
  | .seq (some k) => runLaunched (seqInstr k) s
  | .packet p =>
    match decode s.seqState p with
    | .ok i => runLaunched i s
    | .error e => .refused (.illFormed e)

/-- The next step: the first turn of the schedule, which is used up; the SEQ agent moves when the
host has scheduled nothing (log 3). -/
def nextStep (s : State) : Out :=
  match s.schedule with
  | [] => seqMove s
  | t :: rest => takeTurn t { s with schedule := rest }

/-- The packet as the next turn. A wire byte is taken from the head of RX_FIFO, so it is put
there as well (log 13). -/
def placePacket (p : Packet) (s : State) : State :=
  match p with
  | .wire b => { s with rxFifo := b :: s.rxFifo, schedule := .packet p :: s.schedule }
  | _ => { s with schedule := .packet p :: s.schedule }

/-- The bits of a table row as the next turn. -/
def placeWord (nbits w : Nat) (s : State) : State :=
  match tablePacket nbits w with
  | some p => placePacket p s
  | none => s

end Sys2Proof.Machine
end

