-- ==== Sys2Proof/Machine/Step.lean ====
section
/-! DEFINITION. The step function, and placing a word where it fetches its next instruction. -/

namespace Sys2Proof.Machine

/-- One step of the machine (00_scope R4). -/
def step (s : State) : Host.Outcome State Fault Refusal := nextStep s

/-- The state in which the word is the next instruction to be run (log 13). -/
def State.withFetchWord (s : State) (nbits w : Nat) : State := placeWord nbits w s

end Sys2Proof.Machine
end

