-- ==== Sys2Proof/Machine/Program.lean ====
section
/-! DEFINITION. The textual program lines of 30_encoding R95 and their pseudo-operations (R96), as
turns of the schedule. -/

namespace Sys2Proof.Machine

/-- A program line (R95, R96). -/
inductive Line where
  | reset (init : Angles)
  | resetZero
  | rx (bytes : List Byte)
  | eos
  | cancel
  | tick (cur : Angles)
  | tickZero
  | tickAtTarget
  | tt (n : Nat)
  | rd (n : BitVec 8)
  | snap
  | enc (p : Payload)
  | frame (p : Payload)
  | frameWith (p : Payload) (cs : Byte)
  | seq (name : SeqStep) (n : Nat)
  | run
deriving DecidableEq, Repr

/-- The turn that runs an operation. -/
def opTurn (i : Instr) : List Turn :=
  match encode i with
  | some p => [.packet p]
  | none => []

/-- `rx H1 H2 … Hn`: one RX_BYTE a byte. -/
def rxTurns (bytes : List Byte) : List Turn := bytes.flatMap fun b => opTurn (.rxByte b)

/-- How many SEQ steps are taken, one after another, until none is enabled; at most `fuel`. -/
def runLength : Nat → State → Nat
  | 0, _ => 0
  | fuel + 1, s =>
    match enabledStep s with
    | none => 0
    | some k =>
      match exec (seqInstr k) s with
      | .next t => runLength fuel t + 1
      | .fault _ => 0
      | .refused _ => 0

/-- More SEQ steps than can be taken in a row without the host: each byte held is taken at most
once, and a wait that is armed blocks. -/
def runFuel (s : State) : Nat := s.rxFifo.length + 8

/-- `tick @target`: every joint measured at its target (R96). -/
def atTarget (s : State) : Angles := Vector.ofFn fun j => add s.cfg.arith s.zero[j] s.target[j]

/-- The turns of a line reached in state `s` (R95, R96). -/
def lineTurns (s : State) : Line → List Turn
  | .reset init => opTurn (.reset init)
  | .resetZero => opTurn (.reset zeroAngles)
  | .rx bytes => rxTurns bytes
  | .eos => opTurn .rxEos
  | .cancel => opTurn .cancel
  | .tick cur => opTurn (.tick cur)
  | .tickZero => opTurn (.tick zeroAngles)
  | .tickAtTarget => opTurn (.tick (atTarget s))
  | .tt n => List.replicate n (Turn.packet (.op (opWord 0x5#4 0#8) .empty))
  | .rd n => opTurn (.readReg n)
  | .snap => opTurn .snapshot
  | .enc p => opTurn (.encode p)
  | .frame p => rxTurns (frameBytes p (checksum p)).toList
  | .frameWith p cs => rxTurns (frameBytes p cs).toList
  | .seq name n => List.replicate n (.seq (some name))
  | .run => List.replicate (runLength (runFuel s) s) (.seq none)

/-- A turn taken and, while it answers a next state, the turns after it. -/
def takeTurns : List Turn → State → Out
  | [], s => .next s
  | t :: ts, s =>
    match takeTurn t s with
    | .next u => takeTurns ts u
    | .fault r => .fault r
    | .refused r => .refused r

/-- A program: its lines one after another, each expanded in the state in which it is reached. -/
def runLines : List Line → State → Out
  | [], s => .next s
  | l :: ls, s =>
    match takeTurns (lineTurns s l) s with
    | .next u => runLines ls u
    | .fault r => .fault r
    | .refused r => .refused r

end Sys2Proof.Machine
end

