-- ==== Sys2Proof/Safety.lean ====
section
/-! DEFINITION. The terms the claims are stated in: angles as real numbers, legal payloads, the
invariants of 10_state R43, what a TICK does joint by joint (42_joint_servo R162 to R165), and
repeated steps. -/

namespace Sys2Proof.Machine

/-- The real numbers `x₀, x₁, …` of `Angle.val` (log 1). -/
noncomputable def otherReal : Nat → ℝ := isNegVal_real.choose

/-- The real number an angle stands for (00_scope R8); 0 for an infinity or a NaN. -/
noncomputable def angleReal : Angle → ℝ
  | .val r p o => (r : ℝ) + (p : ℝ) * Real.pi + otherSum otherReal o
  | .inf _ => 0
  | .nan => 0

/-- The real number `x` less its whole turns (41_angle_engine R140). -/
noncomputable def reduced (x : ℝ) : ℝ := x - 2 * Real.pi * (⌊x / (2 * Real.pi)⌋ : ℝ)

/-- The resolved difference of the reduced angles `c` and `t`, as real numbers (41_angle_engine
R145). -/
noncomputable def shortest (c t : ℝ) : ℝ :=
  if Real.pi < c - t then c - t - 2 * Real.pi
  else if c - t < -Real.pi then c - t + 2 * Real.pi
  else c - t

/-- Every payload byte is in 0x01..0xFE (30_encoding R81, R83). -/
def LegalPayload (p : Payload) : Prop := ∀ i : ServoIndex, p[i] ≠ 0x00#8 ∧ p[i] ≠ 0xFF#8

/-- The sum modulo 256 of the first `n` bytes (10_state R43 (c)). -/
def partialSum (p : Payload) (n : Nat) : Byte := (p.toList.take n).foldl (· + ·) 0x00#8

/-- The invariants (b) to (h) of 10_state R43, in a legal configuration; (a) is part of the type of
SEQ_STATE. -/
structure Inv (s : State) : Prop where
  /-- The parameters are legal (00_scope R7). -/
  config : validConfig s.cfg = true
  /-- (b), in PAYLOAD. -/
  payloadIdx : s.seqState = .payload → s.rxIdx.toNat ≤ 20
  /-- (b), in CSUM. -/
  csumIdx : s.seqState = .csum → s.rxIdx = 21#5
  /-- (c). -/
  runningSum : s.seqState = .payload ∨ s.seqState = .csum →
    s.rxSum = partialSum s.frame s.rxIdx.toNat
  /-- (d): the frame is legal and its checksum is the one received. -/
  accepted : s.seqState = .publish → LegalPayload s.frame ∧ s.rxSum = checksum s.frame
  /-- (e). -/
  moving : s.moving = anyUnsettled s.settled
  /-- (f). -/
  timerBound : s.timer ≤ timeoutTicks s.cfg
  /-- (g). -/
  fifoBound : s.rxFifo.length ≤ s.cfg.rxFifoDepth
  /-- (h). -/
  armedTimer : s.seqState = .wait → s.awaiting = true → 1 ≤ s.timer

/-- Every angle the block holds is a number (10_state R32, R33), as it is in the reference
instance. -/
def AnglesAreNumbers (s : State) : Prop :=
  ∀ j : Joint, isNumber s.target[j] = true ∧ isNumber s.zero[j] = true

/-! ## TICK joint by joint -/

/-- The state and the `stopped` bit after the first `k` joint updates of a TICK, that is after `k`
rounds of its loop (42_joint_servo R162). -/
def tickAfter (cur : Angles) (s : State) (k : Nat) : State × Bool :=
  ((List.finRange 18).take k).foldl (updateJoint cur) (s, false)

/-- SETTLED[j] after the first `k` joint updates of a TICK (42_joint_servo R162). -/
def settledAfter (cur : Angles) (s : State) (k : Nat) (j : Joint) : Bool :=
  if j.val < k then (jointEval cur s j).settled else s.settled[j]

/-- MOVING after the first `k` joint updates of a TICK (42_joint_servo R163). -/
def movingAfter (cur : Angles) (s : State) (k : Nat) : Bool :=
  if k = 0 then s.moving else decide (∃ j : Joint, settledAfter cur s k j = false)

/-- A stop transition at the update of joint `k`: MOVING changes from 1 to 0 (42_joint_servo R164). -/
def StopAt (cur : Angles) (s : State) (k : Nat) : Prop :=
  k < 18 ∧ movingAfter cur s k = true ∧ movingAfter cur s (k + 1) = false

/-! ## The sequencer's enabling conditions -/

/-- When each SEQ step is enabled, as its own rule says: 40_frame_codec R111 to R114 and R116,
43_handshake R181, R184, R185, R186 and R188. -/
def StepEnabled (s : State) : SeqStep → Prop
  | .huntDiscard =>
    s.seqState = .hunt ∧ s.cancelLatch = false ∧ ∃ b rest, s.rxFifo = b :: rest ∧ b ≠ 0xFF#8
  | .sync => s.seqState = .hunt ∧ s.cancelLatch = false ∧ ∃ rest, s.rxFifo = 0xFF#8 :: rest
  | .payload => s.seqState = .payload ∧ s.cancelLatch = false ∧ s.rxFifo ≠ []
  | .csum => s.seqState = .csum ∧ s.cancelLatch = false ∧ s.rxFifo ≠ []
  | .eos =>
    (s.seqState = .hunt ∨ s.seqState = .payload ∨ s.seqState = .csum) ∧
      s.cancelLatch = false ∧ s.eosLatch = true ∧ s.rxFifo = []
  | .publish => s.seqState = .publish
  | .flush => s.seqState = .flush
  | .arm => s.seqState = .arm
  | .ack => s.seqState = .wait ∧ s.cancelLatch = false ∧ s.awaiting = false
  | .cancel =>
    (s.seqState = .hunt ∨ s.seqState = .payload ∨ s.seqState = .csum ∨ s.seqState = .wait) ∧
      s.cancelLatch = true

/-! ## Operation words -/

/-- The operand vector has the shape 30_encoding R90 gives the operation. -/
def HasShape (op : Nat) (v : OperandVector) : Prop :=
  if op = 0 ∨ op = 4 then ∃ l, v = .angles l ∧ l.length = 18
  else if op = 8 then ∃ l, v = .bytes l ∧ l.length = 21
  else v = .empty

/-- A RESERVED operation word (30_encoding R91). -/
def isReserved : Instr → Bool
  | .reserved9 _ => true
  | .reservedAB _ _ => true
  | .reservedCF _ _ => true
  | _ => false

/-! ## Repeated steps -/

/-- `n` times the same step, stopping at the first fault or refusal. -/
def repeatStep (f : State → Out) : Nat → State → Out
  | 0, s => .next s
  | n + 1, s =>
    match f s with
    | .next t => repeatStep f n t
    | .fault r => .fault r
    | .refused r => .refused r

/-- Instructions run one after another, stopping at the first fault or refusal. -/
def execAll : List Instr → State → Out
  | [], s => .next s
  | i :: is, s =>
    match exec i s with
    | .next t => execAll is t
    | .fault r => .fault r
    | .refused r => .refused r

/-- The instruction is a host operation of 30_encoding R90 or a SEQ step of R92: the rows of the
opcode table that are steps of the block in their own right. -/
def isBlockStep : Instr → Bool
  | .reset _ => true
  | .rxByte _ => true
  | .rxEos => true
  | .cancel => true
  | .tick _ => true
  | .timeTick => true
  | .readReg _ => true
  | .snapshot => true
  | .encode _ => true
  | .seqHuntDiscard => true
  | .seqSync => true
  | .seqPayload => true
  | .seqCsum => true
  | .seqEos => true
  | .seqPublish => true
  | .seqFlush => true
  | .seqArm => true
  | .seqAck => true
  | .seqCancel => true
  | _ => false

end Sys2Proof.Machine
end

