-- ==== Sys2Proof/Certificates/Slice0/Obligations.lean ====
section
/-! DEFINITION. The statements for the provers. Each docstring names the rule of the spec the
statement formalises. Where a statement speaks of real numbers it is about the reference instance of
ANGLE_ARITH (00_scope R8); every real number is an operand there, by way of the free value
`Config.otherReals` (log 1). The fields `cfg`, `launched`, `schedule` and `result` are the model's
own (log 2 to log 5): what a statement says of them is the model's choice, not a rule of the spec. -/

open Sys2Proof Sys2Proof.Machine

/-! ## Encodings -/

/-- 30_encoding R80 to R92: what the encoder writes, the decoder reads back, for every well-formed
instruction with every operand; exactly the SEQ steps have no encoding. -/
def Obligations.DecodeEncodeRoundTrip : Prop :=
  (∀ (i : Instr) (p : Packet),
    wellFormed i = true → encode i = some p → decode (readingState i) p = .ok i) ∧
  (∀ i : Instr, encode i = none ↔ ∃ k : SeqStep, i = seqInstr k)

/-- 30_encoding R80 to R91, the other direction: a packet that decodes is the one its instruction
encodes to. RESERVED words are left out, since their operand vector is not looked at. -/
def Obligations.DecodedPacketIsTheEncoding : Prop :=
  ∀ (st : SeqState) (p : Packet) (i : Instr),
    decode st p = .ok i → isReserved i = false → encode i = some p

/-- Words written out from 30_encoding R90, R84, R87, R85 and 60_exceptions R220 decode to what they
stand for. -/
def Obligations.SpecWordsDecode : Prop :=
  ∀ st : SeqState,
    decode st (.op 0xFF1#12 .empty) = .ok (.rxByte 0xFF#8) ∧
    decode st (.op 0x7F1#12 .empty) = .ok (.rxByte 0x7F#8) ∧
    decode st (.op 0x002#12 .empty) = .ok .rxEos ∧
    decode st (.op 0x003#12 .empty) = .ok .cancel ∧
    decode st (.op 0x005#12 .empty) = .ok .timeTick ∧
    decode st (.op 0x946#12 .empty) = .ok (.readReg 0x94#8) ∧
    decode st (.op 0x007#12 .empty) = .ok .snapshot ∧
    decode st (.op 0x004#12 (.angles zeroAngles.toList)) = .ok (.tick zeroAngles) ∧
    decode .hunt (.wire 0xFF#8) = .ok .wireSync ∧
    decode .payload (.wire 0xFF#8) = .ok (.wirePayload 0xFF#8) ∧
    decode st (.resp 0x31#8) = .ok .ack ∧
    decode st (.resp 0x30#8) = .ok .nack ∧
    decode st (.drive 0xD#4 (.angles zeroAngles.toList)) = .ok (.driveSoftNeg zeroAngles) ∧
    decode st (.cause 0x5#4 .empty) = .ok .causeSettleTimeout

/-- 30_encoding R91: a reserved OP, a non-zero IMM8 where none is taken, and an operand vector of
the wrong shape are refused; RESERVED never runs. -/
def Obligations.IllFormedWordsAreRefused : Prop :=
  (∀ (s : State) (w : BitVec 12) (v : OperandVector) (rest : List Turn),
    s.schedule = .packet (.op w v) :: rest →
    9 ≤ (w.extractLsb' 0 4).toNat ∨
      (w.extractLsb' 4 8 ≠ 0#8 ∧ (w.extractLsb' 0 4).toNat ≠ 1 ∧ (w.extractLsb' 0 4).toNat ≠ 6) ∨
      ¬ HasShape (w.extractLsb' 0 4).toNat v →
    ∃ r : Refusal, step s = .refused r) ∧
  (∀ (imm : BitVec 8) (a : BitVec 1) (c : BitVec 2) (s : State),
    exec (.reserved9 imm) s = .refused .reservedOp ∧
    exec (.reservedAB imm a) s = .refused .reservedOp ∧
    exec (.reservedCF imm c) s = .refused .reservedOp)

/-! ## The step -/

/-- 00_scope R4, R5, 43_handshake R180: after a first RESET, a step runs the instruction its turn
decodes to, or the named SEQ step, on the state less that turn; the SEQ agent's own move, scheduled
or when nothing is, runs its enabled step, and is stuck when there is none. -/
def Obligations.StepRunsTheScheduledTurn : Prop :=
  ∀ (s : State) (rest : List Turn), s.launched = true →
    (∀ (p : Packet) (i : Instr), s.schedule = .packet p :: rest →
      decode s.seqState p = .ok i → step s = exec i { s with schedule := rest }) ∧
    (∀ k : SeqStep, s.schedule = .seq (some k) :: rest →
      step s = exec (seqInstr k) { s with schedule := rest }) ∧
    (∀ k : SeqStep, s.schedule = .seq none :: rest → enabledStep s = some k →
      step s = exec (seqInstr k) { s with schedule := rest }) ∧
    (∀ k : SeqStep, s.schedule = [] → enabledStep s = some k → step s = exec (seqInstr k) s) ∧
    (s.schedule = .seq none :: rest ∨ s.schedule = [] → enabledStep s = none →
      step s = .fault .stuck)

/-- 70_reset_and_hazards R251, by the field `launched` (log 4): a RESET launches the block; before
the first RESET, a step that answers a next state is a RESET, and a scheduled RESET runs. -/
def Obligations.OnlyResetBeforeFirstReset : Prop :=
  (∀ (s : State) (init : Angles), (∀ j : Joint, isAngleOf s.cfg.arith init[j] = true) →
    ∃ t : State, exec (.reset init) s = .next t ∧ t.launched = true ∧ t.schedule = s.schedule ∧
      t.result = .none) ∧
  ∀ s : State, s.launched = false →
    (∀ t : State, step s = .next t →
      ∃ init : Angles, exec (.reset init) { s with schedule := s.schedule.tail } = .next t) ∧
    (∀ (init : Angles) (rest : List Turn),
      s.schedule = .packet (.op 0x000#12 (.angles init.toList)) :: rest →
      step s = exec (.reset init) { s with schedule := rest })

/-- 20_memory R57: no step writes the configuration, RESET included. -/
def Obligations.ConfigurationIsNeverWritten : Prop :=
  (∀ s t : State, step s = .next t → t.cfg = s.cfg) ∧
  (∀ (i : Instr) (s t : State), exec i s = .next t → t.cfg = s.cfg)

/-! ## Reset -/

/-- 70_reset_and_hazards R250: RESET completes in every state for finite Angles, writes every
register as R250 lists, and keeps the configuration; an operand that is a NaN or an infinity is
refused. -/
def Obligations.ResetEstablishesStartState : Prop :=
  ∀ (s : State) (init : Angles),
    ((∃ j : Joint, isNumber init[j] = false) →
      exec (.reset init) s = .refused .nonFiniteAngle) ∧
    ((∀ j : Joint, isAngleOf s.cfg.arith init[j] = true) →
    ∃ t : State, exec (.reset init) s = .next t ∧
      t.seqState = .hunt ∧ t.rxIdx = 0#5 ∧ t.rxSum = 0x00#8 ∧
      (∀ i : ServoIndex, t.frame[i] = 0x00#8) ∧
      t.rxFifo = [] ∧ t.rxOverrun = false ∧ t.eosLatch = false ∧ t.cancelLatch = false ∧
      t.awaiting = false ∧ t.timer = 0 ∧ t.cause = .none ∧
      (∀ j : Joint, t.target[j] = .val 0 0 [] ∧ t.zero[j] = init[j] ∧ t.settled[j] = false ∧
        driveBits t.driveOut[j] = 0x0#4) ∧
      t.moving = true ∧ t.txOut = [] ∧ t.logOut = [] ∧
      t.cfg = s.cfg ∧ exec (.readReg 0x00#8) t = .next { t with result := .nat 0x0020 })

/-- 42_joint_servo R160, 70_reset_and_hazards R250: TICK and RESET with a NaN or an infinity are
refused, and so are the rows that name an event of theirs (log 6). An operand that the instance
cannot hold is refused too (log 11, the model's choice). -/
def Obligations.BadAnglesAreRefused : Prop :=
  ∀ (s : State) (v : Angles) (i : Instr),
    i = .reset v ∨ i = .tick v ∨ i = .driveZero v ∨ i = .driveSoftPos v ∨ i = .driveSoftNeg v ∨
      i = .driveFullPos v ∨ i = .driveFullNeg v ∨ i = .driveReset v ∨ i = .causeNone v →
    ((∃ j : Joint, isNumber v[j] = false) → exec i s = .refused .nonFiniteAngle) ∧
    ((∀ j : Joint, isNumber v[j] = true) → (∃ j : Joint, isAngleOf s.cfg.arith v[j] = false) →
      exec i s = .refused .angleNotInInstance)

/-- 70_reset_and_hazards R253, in the reference instance: the first TICK after RESET, at the angles
RESET was given, settles every joint with the code 0x8 and reports a stop transition. -/
def Obligations.FirstTickAfterResetStops : Prop :=
  ∀ (s : State) (init : Angles), s.cfg.arith = .exact → (∀ j : Joint, isNumber init[j] = true) →
    ∃ t u : State, exec (.reset init) s = .next t ∧ exec (.tick init) t = .next u ∧
      (∀ j : Joint, u.settled[j] = true ∧ driveBits u.driveOut[j] = 0x8#4) ∧
      u.moving = false ∧ u.awaiting = false ∧ u.result = .tick u.driveOut true ∧
      u = { t with
        settled := u.settled, driveOut := u.driveOut, moving := u.moving, result := u.result }

/-! ## Byte input and the decoder -/

/-- 40_frame_codec R110: RX_BYTE queues the byte, or loses it with code 6 when RX_FIFO is full; after
RX_EOS it is refused. -/
def Obligations.RxByteQueuesOrOverruns : Prop :=
  ∀ (s : State) (b : Byte),
    (s.eosLatch = false → s.rxFifo.length < s.cfg.rxFifoDepth →
      exec (.rxByte b) s = .next { s with rxFifo := s.rxFifo ++ [b], result := .none }) ∧
    (s.eosLatch = false → s.cfg.rxFifoDepth ≤ s.rxFifo.length →
      exec (.rxByte b) s = .next { s with
        rxOverrun := true, cause := .rxOverrun, logOut := s.logOut ++ [.rxOverrun],
        result := .none }) ∧
    (s.eosLatch = true → exec (.rxByte b) s = .refused .rxAfterEos)

/-- 40_frame_codec R115, 43_handshake R187: RX_EOS and CANCEL complete in every state and set their
latch, and nothing else. -/
def Obligations.EndOfStreamAndCancelSetTheirLatch : Prop :=
  ∀ s : State,
    exec .rxEos s = .next { s with eosLatch := true, result := .none } ∧
    exec .cancel s = .next { s with cancelLatch := true, result := .none }

/-- 40_frame_codec R111, R112: hunting drops a byte that is not 0xFF, and starts a frame at 0xFF. -/
def Obligations.HuntDiscardsUntilSync : Prop :=
  ∀ (s : State) (b : Byte) (rest : List Byte),
    s.seqState = .hunt → s.cancelLatch = false → s.rxFifo = b :: rest →
    (b ≠ 0xFF#8 → exec .seqHuntDiscard s = .next { s with rxFifo := rest }) ∧
    (b = 0xFF#8 → exec .seqSync s = .next { s with
      rxFifo := rest, rxIdx := 0#5, rxSum := 0x00#8, seqState := .payload })

/-- 40_frame_codec R113: a payload byte is stored at RX_IDX and added modulo 256, and the 21st ends
the payload. -/
def Obligations.PayloadByteIsStoredAndSummed : Prop :=
  ∀ (s : State) (b : Byte) (rest : List Byte),
    s.seqState = .payload → s.cancelLatch = false → s.rxFifo = b :: rest → s.rxIdx.toNat ≤ 20 →
    ∃ t : State, exec .seqPayload s = .next t ∧
      (∀ i : ServoIndex, t.frame[i] = if i.val = s.rxIdx.toNat then b else s.frame[i]) ∧
      t.rxSum.toNat = (s.rxSum.toNat + b.toNat) % 256 ∧
      t.rxIdx.toNat = s.rxIdx.toNat + 1 ∧
      t.seqState = (if s.rxIdx.toNat = 20 then .csum else .payload) ∧
      t = { s with
        rxFifo := rest, frame := t.frame, rxSum := t.rxSum, rxIdx := t.rxIdx,
        seqState := t.seqState }

/-- 40_frame_codec R114, 60_exceptions R226: a wrong checksum is answered with NACK at once and the
hunt resumes; a right one over a sentinel faults without a response; otherwise the frame is accepted.
The checksum is compared first. -/
def Obligations.ChecksumIsJudgedFirst : Prop :=
  ∀ (s : State) (c : Byte) (rest : List Byte),
    s.seqState = .csum → s.cancelLatch = false → s.rxFifo = c :: rest →
    (c ≠ s.rxSum → exec .seqCsum s = .next { s with
      rxFifo := rest, cause := .protocolError, logOut := s.logOut ++ [.protocolError],
      txOut := s.txOut ++ [0x30#8], seqState := .hunt }) ∧
    (c = s.rxSum → ¬ LegalPayload s.frame → exec .seqCsum s = .next { s with
      rxFifo := rest, cause := .invalidArgument, logOut := s.logOut ++ [.invalidArgument],
      seqState := .fault }) ∧
    (c = s.rxSum → LegalPayload s.frame →
      exec .seqCsum s = .next { s with rxFifo := rest, seqState := .publish })

/-- 40_frame_codec R116, 43_handshake R188: the end of the stream, once RX_FIFO is empty, and a
cancellation end the sequencer's run without a response. -/
def Obligations.EndOfStreamAndCancelTerminate : Prop :=
  ∀ s : State,
    (s.seqState = .hunt ∨ s.seqState = .payload ∨ s.seqState = .csum → s.cancelLatch = false →
      s.eosLatch = true → s.rxFifo = [] →
      exec .seqEos s = .next { s with
        cause := .streamClosed, logOut := s.logOut ++ [.streamClosed], seqState := .terminated }) ∧
    (s.seqState = .hunt ∨ s.seqState = .payload ∨ s.seqState = .csum ∨ s.seqState = .wait →
      s.cancelLatch = true →
      exec .seqCancel s = .next { s with
        cause := .cancelled, logOut := s.logOut ++ [.cancelled], seqState := .terminated })

/-- 40_frame_codec R117: ENCODE returns the 23 frame bytes of a legal payload, or InvalidArgument
with the least offending index, and writes no register. -/
def Obligations.EncodeBuildsTheFrame : Prop :=
  ∀ (s : State) (p : Payload),
    (LegalPayload p → ∃ f : FrameBytes,
      exec (.encode p) s = .next { s with result := .encoded f } ∧
      f[0] = 0xFF#8 ∧ (∀ i : ServoIndex, f[i.val + 1] = p[i]) ∧
      f[22].toNat = (p.toList.map BitVec.toNat).sum % 256) ∧
    (¬ LegalPayload p → ∃ k : ServoIndex,
      exec (.encode p) s = .next { s with result := .invalidArgument k.val } ∧
      (p[k] = 0x00#8 ∨ p[k] = 0xFF#8) ∧
      ∀ i : ServoIndex, i < k → p[i] ≠ 0x00#8 ∧ p[i] ≠ 0xFF#8)

/-- 30_encoding R82: the checksum is the sum modulo 256, the sum of legal bytes is at most 5334, and
a change of exactly one byte changes the checksum. -/
def Obligations.ChecksumIsTheSumModulo256 : Prop :=
  (∀ p : Payload, (checksum p).toNat = (p.toList.map BitVec.toNat).sum % 256) ∧
  (∀ p : Payload, LegalPayload p → (p.toList.map BitVec.toNat).sum ≤ 5334) ∧
  (∀ (p q : Payload) (i : ServoIndex), p[i] ≠ q[i] → (∀ k : ServoIndex, k ≠ i → p[k] = q[k]) →
    checksum p ≠ checksum q)

/-- 40_frame_codec R118: an encoded frame, delivered to a hunting block with an empty RX_FIFO, is
accepted by 23 SEQ steps with the exact payload. -/
def Obligations.EncodedFrameIsAccepted : Prop :=
  ∀ (s : State) (p : Payload), LegalPayload p → s.launched = true → s.seqState = .hunt →
    s.rxFifo = [] → s.cancelLatch = false → s.eosLatch = false → 23 ≤ s.cfg.rxFifoDepth →
    ∃ t u : State, exec (.frame p (checksum p)) s = .next t ∧ repeatStep seqMove 23 t = .next u ∧
      u.seqState = .publish ∧ (∀ i : ServoIndex, u.frame[i] = p[i]) ∧ u.rxFifo = [] ∧
      u.txOut = s.txOut ∧ u.logOut = s.logOut ∧ u.cause = s.cause

/-- 40_frame_codec R120: a frame that differs from a valid one in exactly one payload byte, or only
in its checksum byte, is answered with NACK as a ProtocolError. -/
def Obligations.CorruptedFrameIsNacked : Prop :=
  ∀ (s : State) (p q : Payload) (cs : Byte), LegalPayload p →
    ((∃ i : ServoIndex, p[i] ≠ q[i] ∧ ∀ k : ServoIndex, k ≠ i → p[k] = q[k]) ∧ cs = checksum p) ∨
      (q = p ∧ cs ≠ checksum p) →
    s.launched = true → s.seqState = .hunt → s.rxFifo = [] → s.cancelLatch = false →
    s.eosLatch = false → 23 ≤ s.cfg.rxFifoDepth →
    ∃ t u : State, exec (.frame q cs) s = .next t ∧ repeatStep seqMove 23 t = .next u ∧
      u.seqState = .hunt ∧ u.cause = .protocolError ∧ u.txOut = s.txOut ++ [0x30#8] ∧
      u.logOut = s.logOut ++ [.protocolError] ∧ u.target = s.target

/-! ## The angle arithmetic and engine -/

/-- 00_scope R8, the reference instance: on numbers the operations are those of the real numbers, the
comparisons and the floor-division by TURN included, and the constants are exact. -/
def Obligations.ExactOperationsAreTheReals : Prop :=
  (∀ x y : Angle, isNumber x = true → isNumber y = true →
    (isNumber (add .exact x y) = true ∧ angleReal (add .exact x y) = angleReal x + angleReal y) ∧
    (isNumber (sub .exact x y) = true ∧ angleReal (sub .exact x y) = angleReal x - angleReal y) ∧
    (∀ n : Int, isNumber (mulInt .exact n x) = true ∧
      angleReal (mulInt .exact n x) = n * angleReal x) ∧
    (isNumber (absAngle x) = true ∧ angleReal (absAngle x) = |angleReal x|) ∧
    floorTurn .exact x = some ⌊angleReal x / (2 * Real.pi)⌋ ∧
    (ltAngle x y = true ↔ angleReal x < angleReal y) ∧
    (leAngle x y = true ↔ angleReal x ≤ angleReal y) ∧
    (gtAngle x y = true ↔ angleReal x > angleReal y)) ∧
  angleReal (piAngle .exact) = Real.pi ∧ angleReal (turn .exact) = 2 * Real.pi ∧
  angleReal (tier1 .exact) = Real.pi / 100 ∧ angleReal (tier2 .exact) = Real.pi / 80 ∧
  angleReal (stepAngle .exact) = Real.pi / 256

/-- 41_angle_engine R140, R141: `mod2pi` takes off the whole turns, lies in [0, 2π), and has the
four properties of R141. -/
def Obligations.Mod2piReducesToOneTurn : Prop :=
  (∀ x : Angle, isNumber x = true →
    angleReal (mod2pi .exact x)
        = angleReal x - 2 * Real.pi * (⌊angleReal x / (2 * Real.pi)⌋ : ℝ) ∧
    0 ≤ angleReal (mod2pi .exact x) ∧ angleReal (mod2pi .exact x) < 2 * Real.pi ∧
    mod2pi .exact (mod2pi .exact x) = mod2pi .exact x) ∧
  (∀ (x : Angle) (k : Int), isNumber x = true →
    mod2pi .exact (add .exact x (mulInt .exact k (turn .exact))) = mod2pi .exact x) ∧
  (∀ a b : Angle, isNumber a = true → isNumber b = true →
    mod2pi .exact (add .exact a (mod2pi .exact b)) = mod2pi .exact (add .exact a b))

/-- 41_angle_engine R144, R145: for reduced angles the resolved difference is c − t0, less or plus a
turn when that lies beyond half a turn, and its size is at most π. -/
def Obligations.ResolvedDifferenceByCase : Prop :=
  ∀ c t0 : Angle, isNumber c = true → isNumber t0 = true →
    0 ≤ angleReal c → angleReal c < 2 * Real.pi → 0 ≤ angleReal t0 → angleReal t0 < 2 * Real.pi →
    angleReal (resolve .exact c t0) =
      (if Real.pi < angleReal c - angleReal t0 then angleReal c - angleReal t0 - 2 * Real.pi
       else if angleReal c - angleReal t0 < -Real.pi then
         angleReal c - angleReal t0 + 2 * Real.pi
       else angleReal c - angleReal t0) ∧
    |angleReal (resolve .exact c t0)| ≤ Real.pi

/-- 41_angle_engine R142, R143, R144, R149: the difference is the one resolved from the reduced
current angle and the reduced sum of ZERO and TARGET, in each instance. R145, R146, R147, R148, in the
reference instance: that difference as a real number of the three angles, and by it the tier, the
direction and the settled flag of the joint. -/
def Obligations.TierDirectionAndSettled : Prop :=
  (∀ (k : ArithKind) (cur zero target : Angle),
    (angleEval k cur zero target).diff =
      resolve k (mod2pi k cur) (mod2pi k (add k zero target))) ∧
  ∀ cur zero target : Angle, isNumber cur = true → isNumber zero = true → isNumber target = true →
    ∀ d : ℝ, d = shortest (reduced (angleReal cur)) (reduced (angleReal zero + angleReal target)) →
      angleReal (angleEval .exact cur zero target).diff = d ∧
      (|d| < Real.pi / 100 → (angleEval .exact cur zero target).tier = .zero) ∧
      (Real.pi / 100 ≤ |d| → |d| < Real.pi / 80 →
        (angleEval .exact cur zero target).tier = .soft) ∧
      (Real.pi / 80 ≤ |d| → (angleEval .exact cur zero target).tier = .full) ∧
      (|d| < Real.pi / 100 → (angleEval .exact cur zero target).dir = .pos) ∧
      (Real.pi / 100 ≤ |d| → |d| < Real.pi / 80 →
        (angleEval .exact cur zero target).dir = (if 0 < d then .pos else .neg)) ∧
      (Real.pi / 80 ≤ |d| →
        (angleEval .exact cur zero target).dir = (if 0 < d then .neg else .pos)) ∧
      ((angleEval .exact cur zero target).settled = true ↔ |d| < Real.pi / 80)

/-- 41_angle_engine R150, R153: the reference CONVERT is `SIGN·e·π/256 + off`, and a mirrored leg at
254 − v differs from a direct leg at v by π at the shoulder and by 0 elsewhere. -/
def Obligations.ConvertFormulaAndMirrorSymmetry : Prop :=
  (∀ (c : Config) (leg : Leg) (art : Art) (v : Byte), c.converter = .reference →
    c.arith = .exact → isNumber (perArt c.offset art) = true →
    angleReal (convert c leg art v) =
      (signInt (perArt c.sign art) : ℝ) *
          (if isMirrored c leg = true then 254 - (v.toNat : ℝ) else (v.toNat : ℝ)) *
          (Real.pi / 256) +
        (angleReal (perArt c.offset art) +
          if isMirrored c leg = true ∧ art = .shoulder then Real.pi else 0)) ∧
  (∀ (c : Config) (direct mirrored : Leg) (art : Art) (v : Byte), c.converter = .reference →
    c.arith = .exact → isNumber (perArt c.offset art) = true → isMirrored c direct = false →
    isMirrored c mirrored = true → 1 ≤ v.toNat → v.toNat ≤ 253 →
    angleReal (convert c mirrored art (254#8 - v)) - angleReal (convert c direct art v)
      = if art = .shoulder then Real.pi else 0)

/-- 00_scope R8, the binary64 instance (the rounding is general knowledge the spec marks as such): the
result of rounding is a number of the instance, a multiple of the unit in the last place and within
half of it, ties to even. The unit is 2^(e−52) from 2^e up to 2^(e+1), and 2^−1074 below 2^−1022. From
2^1024 less half a unit on, the result is an infinity. -/
def Obligations.Binary64RoundsWithinHalfAnUlp : Prop :=
  (∀ (q : Rat) (e : Int), -1022 ≤ e → (2 : Rat) ^ e ≤ |q| → |q| < (2 : Rat) ^ (e + 1) →
    |q| < (2 : Rat) ^ (1024 : Int) - (2 : Rat) ^ (970 : Int) →
    ∃ n : Int, rnd .binary64 (.val q 0 []) = .val (n * (2 : Rat) ^ (e - 52)) 0 [] ∧
      isAngleOf .binary64 (.val (n * (2 : Rat) ^ (e - 52)) 0 []) = true ∧
      |n * (2 : Rat) ^ (e - 52) - q| ≤ (2 : Rat) ^ (e - 53) ∧
      (|n * (2 : Rat) ^ (e - 52) - q| = (2 : Rat) ^ (e - 53) → Even n)) ∧
  (∀ q : Rat, |q| < (2 : Rat) ^ (-1022 : Int) →
    ∃ n : Int, rnd .binary64 (.val q 0 []) = .val (n * (2 : Rat) ^ (-1074 : Int)) 0 [] ∧
      isAngleOf .binary64 (.val (n * (2 : Rat) ^ (-1074 : Int)) 0 []) = true ∧
      |n * (2 : Rat) ^ (-1074 : Int) - q| ≤ (2 : Rat) ^ (-1075 : Int) ∧
      (|n * (2 : Rat) ^ (-1074 : Int) - q| = (2 : Rat) ^ (-1075 : Int) → Even n)) ∧
  (∀ q : Rat, (2 : Rat) ^ (1024 : Int) - (2 : Rat) ^ (970 : Int) ≤ |q| →
    rnd .binary64 (.val q 0 []) = .inf (decide (q < 0)))

/-- 00_scope R8, the binary64 instance: each operation is the exact result rounded once; `|·|` and the
comparisons are exact; floor-division by TURN floors the rounded quotient. -/
def Obligations.Binary64OperationsRoundOnce : Prop :=
  ∀ a b : Rat,
    add .binary64 (.val a 0 []) (.val b 0 []) = rnd .binary64 (.val (a + b) 0 []) ∧
    sub .binary64 (.val a 0 []) (.val b 0 []) = rnd .binary64 (.val (a - b) 0 []) ∧
    (∀ n : Int, mulInt .binary64 n (.val a 0 []) = rnd .binary64 (.val (n * a) 0 [])) ∧
    absAngle (.val a 0 []) = .val |a| 0 [] ∧
    (∀ q : Rat, rnd .binary64 (.val (a / (2 * pi64)) 0 []) = .val q 0 [] →
      floorTurn .binary64 (.val a 0 []) = some ⌊q⌋) ∧
    (ltAngle (.val a 0 []) (.val b 0 []) = true ↔ a < b) ∧
    (leAngle (.val a 0 []) (.val b 0 []) = true ↔ a ≤ b) ∧
    (gtAngle (.val a 0 []) (.val b 0 []) = true ↔ a > b)

/-! ## TICK -/

/-- 42_joint_servo R160, R162, R163, R169: in every state, TICK with Angles of the instance completes;
every joint's SETTLED and DRIVE_OUT are what its own angles give, MOVING is the OR of NOT SETTLED, and
nothing else but AWAITING and the result changes. -/
def Obligations.TickUpdatesEveryJoint : Prop :=
  ∀ (s : State) (cur : Angles), (∀ j : Joint, isAngleOf s.cfg.arith cur[j] = true) →
    ∃ (t : State) (stopped : Bool), exec (.tick cur) s = .next t ∧
      (∀ (j : Joint) (r : AngleEval),
        r = angleEval s.cfg.arith cur[j] s.zero[j] s.target[j] →
        t.settled[j] = r.settled ∧ t.driveOut[j] = driveCode r.tier r.dir) ∧
      (t.moving = true ↔ ∃ j : Joint, t.settled[j] = false) ∧
      t.result = .tick t.driveOut stopped ∧
      t = { s with
        settled := t.settled, driveOut := t.driveOut, moving := t.moving,
        awaiting := t.awaiting, result := t.result }

/-- 42_joint_servo R164, R165: the result bit `stopped` is 1 exactly when one of the 18
recomputations takes MOVING from 1 to 0; then, whatever SEQ_STATE is, AWAITING is cleared, and
otherwise it is kept. -/
def Obligations.StopTransitionClearsAwaiting : Prop :=
  ∀ (s : State) (cur : Angles), (∀ j : Joint, isAngleOf s.cfg.arith cur[j] = true) →
    ∃ (t : State) (stopped : Bool), exec (.tick cur) s = .next t ∧
      t.result = .tick t.driveOut stopped ∧
      (stopped = true ↔ ∃ k : Nat, StopAt cur s k) ∧
      t.awaiting = (if stopped = true then false else s.awaiting)

/-- 42_joint_servo R166: a TICK is its 18 joint updates one after another, MOVING after the first `k`
of them is what R163 says, and at most one update takes MOVING from 1 to 0. -/
def Obligations.AtMostOneStopTransition : Prop :=
  ∀ (s : State) (cur : Angles),
    ((∀ j : Joint, isAngleOf s.cfg.arith cur[j] = true) →
      exec (.tick cur) s = .next { (tickAfter cur s 18).1 with
        result := .tick (tickAfter cur s 18).1.driveOut (tickAfter cur s 18).2 }) ∧
    (∀ k : Nat, k ≤ 18 → (tickAfter cur s k).1.moving = movingAfter cur s k) ∧
    ∀ k m : Nat, k < 18 → m < 18 →
      (tickAfter cur s k).1.moving = true → (tickAfter cur s (k + 1)).1.moving = false →
      (tickAfter cur s m).1.moving = true → (tickAfter cur s (m + 1)).1.moving = false → k = m

/-- 42_joint_servo R168: a stop transition requires MOVING = 1 at the start of the TICK; with MOVING
= 0 and every joint settled by the measured angles, a TICK stops nothing and MOVING stays 0. -/
def Obligations.NoStopWithoutPriorMotion : Prop :=
  (∀ (s : State) (cur : Angles) (k : Nat), s.moving = anyUnsettled s.settled →
    StopAt cur s k → s.moving = true) ∧
  (∀ (s : State) (cur : Angles), s.moving = anyUnsettled s.settled → s.moving = false →
    (∀ j : Joint, isAngleOf s.cfg.arith cur[j] = true) →
    (∀ j : Joint, (angleEval s.cfg.arith cur[j] s.zero[j] s.target[j]).settled = true) →
    ∃ t : State, exec (.tick cur) s = .next t ∧ t.moving = false ∧ t.awaiting = s.awaiting ∧
      t.result = .tick t.driveOut false)

/-- 42_joint_servo R161, 30_encoding R87, in the reference instance: the 4-bit code each joint emits,
by the difference R145 gives for the real numbers CUR, ZERO and TARGET, and its SETTLED bit. -/
def Obligations.TickEmitsTheCodeOfTheTier : Prop :=
  ∀ (s : State) (cur : Angles), s.cfg.arith = .exact → AnglesAreNumbers s →
    (∀ j : Joint, isNumber cur[j] = true) →
    ∃ t : State, exec (.tick cur) s = .next t ∧
      ∀ (j : Joint) (d : ℝ),
        d = shortest (reduced (angleReal cur[j]))
          (reduced (angleReal s.zero[j] + angleReal s.target[j])) →
        (|d| < Real.pi / 100 → driveBits t.driveOut[j] = 0x8#4) ∧
        (Real.pi / 100 ≤ |d| → |d| < Real.pi / 80 → 0 < d → driveBits t.driveOut[j] = 0x9#4) ∧
        (Real.pi / 100 ≤ |d| → |d| < Real.pi / 80 → d < 0 → driveBits t.driveOut[j] = 0xD#4) ∧
        (Real.pi / 80 ≤ |d| → 0 < d → driveBits t.driveOut[j] = 0x6#4) ∧
        (Real.pi / 80 ≤ |d| → d < 0 → driveBits t.driveOut[j] = 0x2#4) ∧
        (driveBits t.driveOut[j]).getLsbD 3 = t.settled[j]

/-! ## The handshake -/

/-- 43_handshake R181: SEQ_PUBLISH converts the 18 joint commands through SERVO_MAP and writes all
targets in one step, whatever CANCEL_LATCH is. -/
def Obligations.PublishConvertsAllTargets : Prop :=
  ∀ s : State, s.seqState = .publish →
    ∃ t : State, exec .seqPublish s = .next t ∧
      (∀ (leg : Leg) (art : Art),
        t.target[jointOf leg art] = convert s.cfg leg art s.frame[servoIndex s.cfg leg art]) ∧
      t.seqState = .flush ∧ t = { s with target := t.target, seqState := t.seqState }

/-- 41_angle_engine R150, 43_handshake R181: CONVERT is a parameter; where a build gives it as a table
(log 24, the model's choice of how it is held), SEQ_PUBLISH takes every target from that table. -/
def Obligations.PublishUsesTheGivenConverter : Prop :=
  ∀ (s : State) (entries : Vector (Vector Angle 256) 18), s.seqState = .publish →
    s.cfg.converter = .table entries →
    ∃ t : State, exec .seqPublish s = .next t ∧ t.seqState = .flush ∧
      ∀ j : Joint, t.target[j] = entries[j][s.frame[s.cfg.servoMap[j]].toFin]

/-- 43_handshake R184, R185, R186: SEQ_FLUSH empties RX_FIFO, SEQ_ARM starts the wait with
TIMEOUT_TICKS = 5 × TIMEBASE_HZ, SEQ_ACK emits 0x31 and returns to HUNT. -/
def Obligations.FlushArmAndAcknowledge : Prop :=
  ∀ s : State,
    (s.seqState = .flush → exec .seqFlush s = .next { s with rxFifo := [], seqState := .arm }) ∧
    (s.seqState = .arm → exec .seqArm s = .next { s with
      awaiting := true, timer := 5 * s.cfg.timebaseHz, seqState := .wait }) ∧
    (s.seqState = .wait → s.cancelLatch = false → s.awaiting = false →
      exec .seqAck s = .next { s with txOut := s.txOut ++ [0x31#8], seqState := .hunt })

/-- 43_handshake R203, R200: in an armed wait TIME_TICK counts TIMER down, and at 0 records
SETTLE_TIMEOUT, emits NACK and returns to HUNT with AWAITING still 1; elsewhere it changes nothing. -/
def Obligations.TimeTickCountsTheArmedWait : Prop :=
  ∀ s : State,
    (s.seqState = .wait → s.cancelLatch = false → s.awaiting = true → 2 ≤ s.timer →
      exec .timeTick s = .next { s with timer := s.timer - 1, result := .none }) ∧
    (s.seqState = .wait → s.cancelLatch = false → s.awaiting = true → s.timer = 1 →
      exec .timeTick s = .next { s with
        timer := 0, cause := .settleTimeout, logOut := s.logOut ++ [.settleTimeout],
        txOut := s.txOut ++ [0x30#8], seqState := .hunt, result := .none }) ∧
    (s.seqState ≠ .wait ∨ s.cancelLatch = true ∨ s.awaiting = false →
      exec .timeTick s = .next { s with result := .none })

/-- 43_handshake R201: once a stop transition has cleared AWAITING in WAIT, no number of TIME_TICKs
counts or expires, and the ACK is still sent. -/
def Obligations.AckOverTimeout : Prop :=
  ∀ (s : State) (n : Nat), s.seqState = .wait → s.cancelLatch = false → s.awaiting = false →
    ∃ t u : State, repeatStep (exec .timeTick) n s = .next t ∧ t.timer = s.timer ∧
      t.txOut = s.txOut ∧ exec .seqAck t = .next u ∧ u.txOut = s.txOut ++ [0x31#8] ∧
      u.seqState = .hunt

/-- 43_handshake R185, R203, R199: a wait armed by SEQ_ARM, in which no stop transition and no CANCEL
comes, is still waiting after fewer than TIMEOUT_TICKS TIME_TICKs, and the TIMEOUT_TICKS-th sends
NACK. -/
def Obligations.WaitExpiresAtTimeoutTicks : Prop :=
  ∀ s : State, s.seqState = .arm → s.cancelLatch = false → validConfig s.cfg = true →
    ∃ t : State, exec .seqArm s = .next t ∧
      (∀ n : Nat, n < timeoutTicks s.cfg →
        ∃ u : State, repeatStep (exec .timeTick) n t = .next u ∧ u.seqState = .wait ∧
          u.timer = timeoutTicks s.cfg - n ∧ u.txOut = s.txOut) ∧
      ∃ u : State, repeatStep (exec .timeTick) (timeoutTicks s.cfg) t = .next u ∧
        u.seqState = .hunt ∧ u.timer = 0 ∧ u.cause = .settleTimeout ∧ u.awaiting = true ∧
        u.txOut = s.txOut ++ [0x30#8] ∧ u.logOut = s.logOut ++ [.settleTimeout]

/-- 43_handshake R180 with the rules it names: a SEQ step runs exactly when its own condition holds,
at most one is enabled, and the SEQ agent's move is that one. -/
def Obligations.OneSeqStepIsEnabled : Prop :=
  (∀ (s : State) (k : SeqStep), (∃ t : State, exec (seqInstr k) s = .next t) ↔ StepEnabled s k) ∧
  (∀ (s : State) (k m : SeqStep), StepEnabled s k → StepEnabled s m → k = m) ∧
  (∀ (s : State) (k : SeqStep), enabledStep s = some k ↔ StepEnabled s k) ∧
  (∀ (s : State) (k : SeqStep), ¬ StepEnabled s k →
    exec (seqInstr k) s = .refused .notEnabled)

/-- 30_encoding R96 (`run`), 43_handshake R180: left to itself, the SEQ agent takes finitely many
steps until none is enabled, at most one for each byte held and eight more. -/
def Obligations.SeqAgentComesToRest : Prop :=
  ∀ s : State, s.launched = true →
    ∃ (n : Nat) (t : State), n ≤ s.rxFifo.length + 8 ∧ repeatStep seqMove n s = .next t ∧
      enabledStep t = none

/-- 43_handshake R189, R200, 10_state R28: while CANCEL_LATCH = 1 no step emits on TX_OUT: the latch
and TX_OUT stay until RESET, the decoder steps, SEQ_EOS and SEQ_ACK are disabled, TIME_TICK does not
act, and PUBLISH, FLUSH and ARM stay enabled. That a disabled step is the refusal `notEnabled` is the
model's reading (log 12, DEDUCED), and the result `none` is log 5. -/
def Obligations.CancellationSilencesTheLink : Prop :=
  ∀ s : State, s.cancelLatch = true →
    (∀ t : State, step s = .next t →
      (t.txOut = s.txOut ∧ t.cancelLatch = true) ∨
        ∃ init : Angles, t = resetTo init { s with schedule := s.schedule.tail }) ∧
    (∀ k : SeqStep, k = .huntDiscard ∨ k = .sync ∨ k = .payload ∨ k = .csum ∨ k = .eos ∨ k = .ack →
      exec (seqInstr k) s = .refused .notEnabled) ∧
    exec .timeTick s = .next { s with result := .none } ∧
    (s.seqState = .publish → ∃ t : State, exec .seqPublish s = .next t ∧ t.seqState = .flush) ∧
    (s.seqState = .flush → ∃ t : State, exec .seqFlush s = .next t ∧ t.seqState = .arm) ∧
    (s.seqState = .arm → ∃ t : State, exec .seqArm s = .next t ∧ t.seqState = .wait)

/-- 43_handshake R190: in TERMINATED and FAULT no SEQ step is enabled and only RESET leaves the state;
RX_BYTE still queues, TICK still completes, TIME_TICK does nothing, and READ_REG, SNAPSHOT and ENCODE
answer. That a step not enabled is the refusal `notEnabled` is the model's reading (log 12, DEDUCED),
and the result `none` is log 5. -/
def Obligations.EndedSequencerStaysEnded : Prop :=
  ∀ s : State, s.seqState = .terminated ∨ s.seqState = .fault →
    (∀ k : SeqStep, exec (seqInstr k) s = .refused .notEnabled) ∧
    (∀ t : State, step s = .next t → t.seqState = s.seqState ∨
      ∃ init : Angles, t = resetTo init { s with schedule := s.schedule.tail }) ∧
    (∀ b : Byte, s.eosLatch = false → s.rxFifo.length < s.cfg.rxFifoDepth →
      exec (.rxByte b) s = .next { s with rxFifo := s.rxFifo ++ [b], result := .none }) ∧
    (∀ cur : Angles, (∀ j : Joint, isAngleOf s.cfg.arith cur[j] = true) →
      ∃ t : State, exec (.tick cur) s = .next t ∧ t.seqState = s.seqState ∧
        ∀ (j : Joint) (r : AngleEval), r = angleEval s.cfg.arith cur[j] s.zero[j] s.target[j] →
          t.settled[j] = r.settled ∧ t.driveOut[j] = driveCode r.tier r.dir) ∧
    exec .timeTick s = .next { s with result := .none } ∧
    (∀ n : BitVec 8, ∃ r : OpResult, exec (.readReg n) s = .next { s with result := r }) ∧
    (∃ r : OpResult, exec .snapshot s = .next { s with result := r }) ∧
    (∀ p : Payload, ∃ r : OpResult, exec (.encode p) s = .next { s with result := r })

/-! ## Observation -/

/-- 10_state R41: the fields of STATUS, and its value after RESET, 0x0020, which is the spec's own
inference from the registers' reset values (R41: "derived: from the reset values of rules R21 to R35"). -/
def Obligations.StatusWordFields : Prop :=
  (∀ (s : State) (init : Angles), (∀ j : Joint, isAngleOf s.cfg.arith init[j] = true) →
    ∃ t : State, exec (.reset init) s = .next t ∧
      exec (.readReg 0x00#8) t = .next { t with result := .nat 0x0020 }) ∧
  ∀ s : State,
    ∃ w : BitVec 16, exec (.readReg 0x00#8) s = .next { s with result := .nat w.toNat } ∧
      w.extractLsb' 0 4 = seqBits s.seqState ∧
      w.getLsbD 4 = s.awaiting ∧ w.getLsbD 5 = s.moving ∧ w.getLsbD 6 = s.cancelLatch ∧
      w.getLsbD 7 = s.eosLatch ∧ w.getLsbD 8 = s.rxOverrun ∧ w.extractLsb' 9 3 = 0#3 ∧
      w.extractLsb' 12 4 = causeBits s.cause

/-- 10_state R40, 43_handshake R206: READ_REG completes in every state for every register number,
changes nothing but the result, and returns what the map says; other numbers read as 0. -/
def Obligations.ReadRegReturnsTheMap : Prop :=
  ∀ s : State,
    (∀ n : BitVec 8, ∃ r : OpResult, exec (.readReg n) s = .next { s with result := r }) ∧
    exec (.readReg 0x01#8) s = .next { s with result := .nat s.rxIdx.toNat } ∧
    exec (.readReg 0x02#8) s = .next { s with result := .nat s.rxSum.toNat } ∧
    (s.timer < 65536 → exec (.readReg 0x03#8) s = .next { s with result := .nat s.timer }) ∧
    (∃ v : Nat, exec (.readReg 0x04#8) s = .next { s with result := .nat v } ∧
      v < 2 ^ 18 ∧ ∀ j : Joint, v.testBit j.val = s.settled[j]) ∧
    exec (.readReg 0x05#8) s = .next { s with result := .nat s.rxFifo.length } ∧
    (∀ j : Joint, exec (.readReg (BitVec.ofNat 8 (0x10 + j.val))) s
        = .next { s with result := .nat (driveBits s.driveOut[j]).toNat } ∧
      exec (.readReg (BitVec.ofNat 8 (0x40 + j.val))) s
        = .next { s with result := .angle s.target[j] } ∧
      exec (.readReg (BitVec.ofNat 8 (0x60 + j.val))) s
        = .next { s with result := .angle s.zero[j] }) ∧
    (∀ i : ServoIndex, exec (.readReg (BitVec.ofNat 8 (0x80 + i.val))) s
        = .next { s with result := .nat s.frame[i].toNat }) ∧
    (∀ n : BitVec 8,
      (0x06 ≤ n.toNat ∧ n.toNat ≤ 0x0F) ∨ (0x22 ≤ n.toNat ∧ n.toNat ≤ 0x3F) ∨
        (0x52 ≤ n.toNat ∧ n.toNat ≤ 0x5F) ∨ (0x72 ≤ n.toNat ∧ n.toNat ≤ 0x7F) ∨
        0x95 ≤ n.toNat →
      exec (.readReg n) s = .next { s with result := .nat 0 })

/-- 43_handshake R207: SNAPSHOT returns the 18 targets and writes no register. -/
def Obligations.SnapshotReturnsTheTargets : Prop :=
  ∀ s : State, ∃ v : Angles, exec .snapshot s = .next { s with result := .snapshot v } ∧
    ∀ j : Joint, v[j] = s.target[j]

/-! ## Invariants and outputs -/

/-- 10_state R43: every step keeps the invariants (b) to (h). -/
def Obligations.StepKeepsTheInvariants : Prop :=
  ∀ s t : State, Inv s → step s = .next t → Inv t

/-- 10_state R43: the state after `reset 0` meets the invariants, and so does the state any RESET
leaves in a legal configuration. -/
def Obligations.ResetMeetsTheInvariants : Prop :=
  Inv State.reset ∧
  ∀ (s : State) (init : Angles), validConfig s.cfg = true →
    (∀ j : Joint, isAngleOf s.cfg.arith init[j] = true) →
    ∃ t : State, exec (.reset init) s = .next t ∧ Inv t

/-- 41_angle_engine R149, R150: in the reference instance with a legal configuration, every step keeps
TARGET and ZERO numbers. -/
def Obligations.StepKeepsAnglesNumbers : Prop :=
  ∀ s t : State, s.cfg.arith = .exact → validConfig s.cfg = true → AnglesAreNumbers s →
    step s = .next t → AnglesAreNumbers t

/-- 30_encoding R84: the block emits no byte on TX_OUT but 0x31 and 0x30, at most one a step; only
RESET empties the stream. -/
def Obligations.OnlyResponsesOnTxOut : Prop :=
  ∀ s t : State, step s = .next t →
    t.txOut = s.txOut ∨ t.txOut = s.txOut ++ [0x31#8] ∨ t.txOut = s.txOut ++ [0x30#8] ∨
      ∃ init : Angles, t = resetTo init { s with schedule := s.schedule.tail }

/-- 60_exceptions R220, R229, 10_state R31: an instruction of the block either leaves CAUSE and
LOG_OUT alone or writes a code other than NONE to CAUSE and appends just that code to LOG_OUT; only
RESET does otherwise. FRAME, which is 23 RX_BYTEs, is left out. -/
def Obligations.CausesAreRecordedOnce : Prop :=
  ∀ (i : Instr) (s t : State), (∀ (p : Payload) (cs : Byte), i ≠ .frame p cs) →
    exec i s = .next t →
    (t.cause = s.cause ∧ t.logOut = s.logOut) ∨
      (t.cause ≠ .none ∧ t.logOut = s.logOut ++ [t.cause]) ∨
      ∃ init : Angles, t = resetTo init s

/-! ## The servo address map -/

/-- 20_memory R58, R60: in a legal configuration SERVO_MAP is injective onto 0..17, SERVO_INV is its
inverse and gives none for 18, 19 and 20; in every configuration a lookup with an absent leg or
articulation code is InvalidArgument, and any other answers. -/
def Obligations.ServoMapIsABijection : Prop :=
  (∀ c : Config, validConfig c = true →
    (∀ (leg : Leg) (art : Art), (servoIndex c leg art).val < 18 ∧
      servoInv c (servoIndex c leg art) = some (leg, art)) ∧
    (∀ i : ServoIndex, i.val < 18 → ∃ (leg : Leg) (art : Art), servoIndex c leg art = i) ∧
    (∀ i : ServoIndex, 18 ≤ i.val → servoInv c i = none)) ∧
  (∀ (c : Config) (leg : BitVec 3) (art : BitVec 2),
    (6 ≤ leg.toNat ∨ art.toNat = 3 → servoLookup c leg art = .error .invalidArgument) ∧
    (leg.toNat < 6 → art.toNat < 3 →
      ∃ i : ServoIndex, servoLookup c leg art = .ok i ∧
        ∀ j : Joint, j.val = 3 * leg.toNat + art.toNat → i = c.servoMap[j]))

/-! ## The rows that name events (the model's choice, log 6, log 7, log 8) -/

/-- 30_encoding R85: how the byte at the head of RX_FIFO is read depends on SEQ_STATE; each wire row
completes in its own state, as the SEQ step that takes the byte. -/
def Obligations.WireBytesAreReadByState : Prop :=
  ∀ (s : State) (b : Byte) (rest : List Byte), s.cancelLatch = false → s.rxFifo = b :: rest →
    (s.seqState = .hunt → b = 0xFF#8 → ∃ t : State,
      exec .wireSync s = .next t ∧ exec .seqSync s = .next t ∧ t.seqState = .payload ∧
      t.rxIdx = 0#5 ∧ t.rxSum = 0x00#8 ∧ t.rxFifo = rest) ∧
    (s.seqState = .hunt → b ≠ 0xFF#8 → ∃ t : State,
      exec (.wireGarbage b) s = .next t ∧ exec .seqHuntDiscard s = .next t ∧
      t = { s with rxFifo := rest }) ∧
    (s.seqState = .payload → ∃ t : State,
      exec (.wirePayload b) s = .next t ∧ exec .seqPayload s = .next t ∧ t.rxFifo = rest ∧
      t.rxSum = s.rxSum + b) ∧
    (s.seqState = .csum → ∃ t : State,
      exec (.wireChecksum b) s = .next t ∧ exec .seqCsum s = .next t ∧ t.rxFifo = rest)

/-- 30_encoding R84, 43_handshake R191: ACK completes where SEQ_ACK does; NACK completes where
SEQ_CSUM finds a mismatch and where TIME_TICK expires the wait. -/
def Obligations.ResponseRowsComplete : Prop :=
  ∀ s : State, s.cancelLatch = false →
    (s.seqState = .wait → s.awaiting = false → ∃ t : State,
      exec .ack s = .next t ∧ exec .seqAck s = .next t ∧ t.txOut = s.txOut ++ [0x31#8]) ∧
    (∀ (c : Byte) (rest : List Byte), s.seqState = .csum → s.rxFifo = c :: rest → c ≠ s.rxSum →
      ∃ t : State, exec .nack s = .next t ∧ exec .seqCsum s = .next t ∧
        t.txOut = s.txOut ++ [0x30#8]) ∧
    (s.seqState = .wait → s.awaiting = true → s.timer = 1 → ∃ t : State,
      exec .nack s = .next t ∧ exec .timeTick s = .next t ∧ t.txOut = s.txOut ++ [0x30#8])

/-- 60_exceptions R220 to R227, R232: each cause row completes where the block records that cause, as
the step that records it. -/
def Obligations.CauseRowsComplete : Prop :=
  ∀ s : State,
    (∀ init : Angles, (∀ j : Joint, isAngleOf s.cfg.arith init[j] = true) → ∃ t : State,
      exec (.causeNone init) s = .next t ∧ exec (.reset init) s = .next t ∧ t.cause = .none) ∧
    (∀ (c : Byte) (rest : List Byte), s.cancelLatch = false → s.seqState = .csum →
      s.rxFifo = c :: rest → c ≠ s.rxSum → ∃ t : State,
      exec .causeProtocolError s = .next t ∧ exec .seqCsum s = .next t ∧
      t.cause = .protocolError ∧ t.seqState = .hunt) ∧
    (∀ (c : Byte) (rest : List Byte), s.cancelLatch = false → s.seqState = .csum →
      s.rxFifo = c :: rest → c = s.rxSum → ¬ LegalPayload s.frame → ∃ t : State,
      exec .causeInvalidArgument s = .next t ∧ exec .seqCsum s = .next t ∧
      t.cause = .invalidArgument ∧ t.seqState = .fault ∧ t.txOut = s.txOut) ∧
    (s.seqState = .hunt ∨ s.seqState = .payload ∨ s.seqState = .csum → s.cancelLatch = false →
      s.eosLatch = true → s.rxFifo = [] → ∃ t : State,
      exec .causeStreamClosed s = .next t ∧ exec .seqEos s = .next t ∧
      t.cause = .streamClosed ∧ t.seqState = .terminated ∧ t.txOut = s.txOut) ∧
    (s.seqState = .hunt ∨ s.seqState = .payload ∨ s.seqState = .csum ∨ s.seqState = .wait →
      s.cancelLatch = true → ∃ t : State,
      exec .causeCancelled s = .next t ∧ exec .seqCancel s = .next t ∧
      t.cause = .cancelled ∧ t.seqState = .terminated ∧ t.txOut = s.txOut) ∧
    (s.seqState = .wait → s.cancelLatch = false → s.awaiting = true → s.timer = 1 → ∃ t : State,
      exec .causeSettleTimeout s = .next t ∧ exec .timeTick s = .next t ∧
      t.cause = .settleTimeout ∧ t.seqState = .hunt) ∧
    (s.eosLatch = false → s.cfg.rxFifoDepth ≤ s.rxFifo.length → ∀ b : Byte, ∃ t : State,
      exec .causeRxOverrun s = .next t ∧ exec (.rxByte b) s = .next t ∧
      t.cause = .rxOverrun ∧ t.rxOverrun = true ∧ t.seqState = s.seqState)

/-- 30_encoding R87: each drive row completes where a TICK emits its code for some joint, as that
TICK; DRIVE_RESET completes as RESET. -/
def Obligations.DriveRowsComplete : Prop :=
  ∀ (s : State) (v : Angles), (∀ j : Joint, isAngleOf s.cfg.arith v[j] = true) →
    (∃ t : State, exec (.driveReset v) s = .next t ∧ exec (.reset v) s = .next t ∧
      ∀ j : Joint, driveBits t.driveOut[j] = 0x0#4) ∧
    ∃ t : State, exec (.tick v) s = .next t ∧
      ∀ (j : Joint) (r : AngleEval), r = angleEval s.cfg.arith v[j] s.zero[j] s.target[j] →
        (driveCode r.tier r.dir = .zero → exec (.driveZero v) s = .next t) ∧
        (driveCode r.tier r.dir = .softPos → exec (.driveSoftPos v) s = .next t) ∧
        (driveCode r.tier r.dir = .softNeg → exec (.driveSoftNeg v) s = .next t) ∧
        (driveCode r.tier r.dir = .fullPos → exec (.driveFullPos v) s = .next t) ∧
        (driveCode r.tier r.dir = .fullNeg → exec (.driveFullNeg v) s = .next t)

/-- 30_encoding R96: a frame is 23 RX_BYTEs, SYNC first, then the payload, then the checksum; it
completes before RX_EOS, and with room for it RX_FIFO gains exactly those bytes. -/
def Obligations.FrameIsTwentyThreeRxBytes : Prop :=
  ∀ (s : State) (p : Payload) (cs : Byte),
    exec (.frame p cs) s
      = execAll (.rxByte 0xFF#8 :: p.toList.map Instr.rxByte ++ [.rxByte cs]) s ∧
    (s.eosLatch = false → ∃ t : State, exec (.frame p cs) s = .next t) ∧
    (s.eosLatch = false → s.rxFifo.length + 23 ≤ s.cfg.rxFifoDepth →
      exec (.frame p cs) s = .next { s with
        rxFifo := s.rxFifo ++ (0xFF#8 :: p.toList ++ [cs]), result := .none })

/-- Log 6, log 8: a row that names an event does nothing that an operation or a SEQ step of the block
does not do in the same state. -/
def Obligations.EventRowsAddNoBehaviour : Prop :=
  ∀ (i : Instr) (s t : State), isBlockStep i = false →
    (∀ (p : Payload) (cs : Byte), i ≠ .frame p cs) → exec i s = .next t →
    ∃ i' : Instr, isBlockStep i' = true ∧ exec i' s = .next t
end

