-- ==== Sys2Proof/Laws/Angle.lean ====
section
/-! SUPPORT. The angle arithmetic of the reference instance, read as real numbers: the order is the
real order, floor-division is the real floor, and `mod2pi` is 41_angle_engine R140. -/

namespace Sys2Proof.Machine

/-- The real number `r + p·π + Σ oᵢ·xᵢ`. -/
noncomputable def valReal (r p : Rat) (o : List Int) : ℝ :=
  (r : ℝ) + (p : ℝ) * Real.pi + otherSum otherReal o

@[simp] theorem angleReal_val (r p : Rat) (o : List Int) : angleReal (.val r p o) = valReal r p o := rfl

@[simp] theorem otherSum_nil (x : Nat → ℝ) : otherSum x [] = 0 := rfl

@[simp] theorem otherSum_addOther (x : Nat → ℝ) (a b : List Int) :
    otherSum x (addOther a b) = otherSum x a + otherSum x b := by
  induction a, b using addOther.induct generalizing x with
  | case1 b => simp [addOther]
  | case2 a as => simp [addOther]
  | case3 a as b bs ih => simp [addOther, otherSum, ih]; ring

@[simp] theorem otherSum_map_mul (x : Nat → ℝ) (n : Int) (o : List Int) :
    otherSum x (o.map (n * ·)) = n * otherSum x o := by
  induction o generalizing x with
  | nil => simp
  | cons a o ih => simp [otherSum, ih]; ring

@[simp] theorem otherSum_map_neg (x : Nat → ℝ) (o : List Int) :
    otherSum x (o.map (- ·)) = -otherSum x o := by
  induction o generalizing x with
  | nil => simp
  | cons a o ih => simp [otherSum, ih]; ring

@[simp] theorem addOther_nil (a : List Int) : addOther a [] = a := by cases a <;> rfl

theorem addOther_assoc (a b c : List Int) :
    addOther (addOther a b) c = addOther a (addOther b c) := by
  induction a generalizing b c with
  | nil => rfl
  | cons x a ih =>
    cases b with
    | nil => rfl
    | cons y b => cases c with
      | nil => rfl
      | cons z c => simp [addOther, ih, Int.add_assoc]

@[simp] theorem angleReal_zero : angleReal .zero = 0 := by simp [Angle.zero, valReal]

/-- `isNegVal` decides the sign. -/
theorem isNegVal_iff (r p : Rat) (o : List Int) : isNegVal r p o = true ↔ valReal r p o < 0 :=
  isNegVal_real.choose_spec r p o

theorem valReal_sub (r p r' p' : Rat) (o o' : List Int) :
    valReal (r - r') (p - p') (addOther o (o'.map (- ·))) = valReal r p o - valReal r' p' o' := by
  simp only [valReal, otherSum_addOther, otherSum_map_neg]
  push_cast
  ring

theorem valReal_neg (r p : Rat) (o : List Int) :
    valReal (-r) (-p) (o.map (- ·)) = -valReal r p o := by
  simp only [valReal, otherSum_map_neg]
  push_cast
  ring

/-- Turns taken off. -/
theorem valReal_turns (r p : Rat) (o : List Int) (k : Nat) :
    valReal r (p - 2 * k) o = valReal r p o - 2 * Real.pi * k := by
  simp [valReal]; ring

theorem ltAngle_val_iff (r p r' p' : Rat) (o o' : List Int) :
    ltAngle (.val r p o) (.val r' p' o') = true ↔ valReal r p o < valReal r' p' o' := by
  rw [ltAngle, isNegVal_iff, valReal_sub, sub_neg]

theorem absAngle_val (r p : Rat) (o : List Int) : absAngle (.val r p o) =
    if isNegVal r p o then .val (-r) (-p) (o.map (- ·)) else .val r p o := rfl

theorem angleReal_abs (x : Angle) : angleReal (absAngle x) = |angleReal x| := by
  cases x with
  | val r p o =>
    rw [absAngle_val]
    split
    · rename_i h
      rw [isNegVal_iff] at h
      rw [angleReal_val, angleReal_val, valReal_neg, abs_of_neg h]
    · rename_i h
      rw [isNegVal_iff, not_lt] at h
      rw [angleReal_val, abs_of_nonneg h]
  | inf a => simp [absAngle, angleReal]
  | nan => simp [absAngle, angleReal]

theorem isNumber_abs (x : Angle) : isNumber (absAngle x) = isNumber x := by
  cases x with
  | val r p o => rw [absAngle_val]; split <;> rfl
  | inf a => rfl
  | nan => rfl

/-- On numbers the angle order is the order of the reals. -/
theorem ltAngle_iff {x y : Angle} (hx : isNumber x = true) (hy : isNumber y = true) :
    ltAngle x y = true ↔ angleReal x < angleReal y := by
  cases x with
  | val r p o =>
    cases y with
    | val r' p' o' => exact ltAngle_val_iff r p r' p' o o'
    | inf a => simp [isNumber] at hy
    | nan => simp [isNumber] at hy
  | inf a => simp [isNumber] at hx
  | nan => simp [isNumber] at hx

theorem gtAngle_iff {x y : Angle} (hx : isNumber x = true) (hy : isNumber y = true) :
    gtAngle x y = true ↔ angleReal y < angleReal x := ltAngle_iff hy hx

theorem leAngle_iff {x y : Angle} (hx : isNumber x = true) (hy : isNumber y = true) :
    leAngle x y = true ↔ angleReal x ≤ angleReal y := by
  have h : leAngle x y = !ltAngle y x := by
    cases x <;> cases y <;> first | rfl | simp [isNumber] at hx hy
  rw [h, Bool.not_eq_true', ← Bool.not_eq_true, ltAngle_iff hy hx, not_lt]

/-! ## The operations of the reference instance -/

theorem add_exact_real {x y : Angle} (hx : isNumber x = true) (hy : isNumber y = true) :
    isNumber (add .exact x y) = true ∧ angleReal (add .exact x y) = angleReal x + angleReal y := by
  cases x <;> cases y <;> simp_all [isNumber, add, rnd, rawAdd, valReal]
  ring

theorem sub_exact_real {x y : Angle} (hx : isNumber x = true) (hy : isNumber y = true) :
    isNumber (sub .exact x y) = true ∧ angleReal (sub .exact x y) = angleReal x - angleReal y := by
  cases x <;> cases y <;> simp_all [isNumber, sub, rnd, rawAdd, negAngle, valReal]
  ring

theorem mulInt_exact_real (n : Int) {x : Angle} (hx : isNumber x = true) :
    isNumber (mulInt .exact n x) = true ∧ angleReal (mulInt .exact n x) = n * angleReal x := by
  cases x <;> simp_all [isNumber, mulInt, rnd, rawMulInt, valReal]
  ring

@[simp] theorem piAngle_exact_real : angleReal (piAngle .exact) = Real.pi := by
  simp [piAngle, valReal]

@[simp] theorem turn_exact_real : angleReal (turn .exact) = 2 * Real.pi := by
  simp [turn, valReal]

@[simp] theorem tier1_exact_real : angleReal (tier1 .exact) = Real.pi / 100 := by
  simp [tier1, valReal]; ring

@[simp] theorem tier2_exact_real : angleReal (tier2 .exact) = Real.pi / 80 := by
  simp [tier2, valReal]; ring

@[simp] theorem stepAngle_exact_real : angleReal (stepAngle .exact) = Real.pi / 256 := by
  simp [stepAngle, valReal]; ring

/-! ## floor-division by TURN -/

theorem turnsLe_iff (k : Nat) (r p : Rat) (o : List Int) :
    turnsLe k r p o = true ↔ 2 * Real.pi * k ≤ valReal r p o := by
  rw [turnsLe, Bool.not_eq_true', ← Bool.not_eq_true, isNegVal_iff, valReal_turns, not_lt, sub_nonneg]

/-- The bits found from the top give the number of whole turns. -/
theorem floorBits_spec (r p : Rat) (o : List Int) (n k : Nat) (lo : 2 * Real.pi * k ≤ valReal r p o)
    (hi : valReal r p o < 2 * Real.pi * (k + 2 ^ n)) :
    2 * Real.pi * (floorBits r p o n k) ≤ valReal r p o ∧
      valReal r p o < 2 * Real.pi * (floorBits r p o n k + 1) := by
  induction n generalizing k with
  | zero => exact ⟨by simpa [floorBits] using lo, by simpa [floorBits] using hi⟩
  | succ n ih =>
    rw [floorBits]
    split
    · rename_i h
      rw [turnsLe_iff] at h
      refine ih _ h ?_
      push_cast at hi ⊢
      rw [pow_succ] at hi
      linarith
    · rename_i h
      rw [turnsLe_iff, not_le] at h
      push_cast at h
      exact ih _ lo h

theorem cast_le_natAbs_ceil (r : Rat) : (r : ℝ) ≤ (r.ceil.natAbs : ℝ) := by
  have h1 : (r : ℝ) ≤ (r.ceil : ℝ) := by exact_mod_cast Rat.le_ceil
  have h2 : (r.ceil : ℝ) ≤ (r.ceil.natAbs : ℝ) := by
    rw [← Int.cast_natCast (r.ceil.natAbs)]
    exact Int.cast_le.mpr Int.le_natAbs
  exact h1.trans h2

/-- `turnBits` bits are enough. -/
theorem lt_turnBits (r p : Rat) (o : List Int) :
    valReal r p o < 2 * Real.pi * 2 ^ turnBits r p o := by
  unfold turnBits
  split
  · rename_i ho
    have hpi := Real.pi_gt_three
    have hr := cast_le_natAbs_ceil r
    have hp := cast_le_natAbs_ceil p
    have hlog : ((r.ceil.natAbs + p.ceil.natAbs + 1 : Nat) : ℝ)
        < 2 ^ (Nat.log2 (r.ceil.natAbs + p.ceil.natAbs + 1) + 1) := by
      exact_mod_cast (Nat.lt_log2_self : r.ceil.natAbs + p.ceil.natAbs + 1 < _)
    push_cast at hlog
    have h0 : (0 : ℝ) ≤ (r.ceil.natAbs : ℝ) := by positivity
    have h1 : (0 : ℝ) ≤ (p.ceil.natAbs : ℝ) := by positivity
    rw [valReal, otherSum_of_all_zero _ o ho]
    nlinarith
  · have h := Nat.find_spec (turns_bounded r p o)
    rw [← Bool.not_eq_true, turnsLe_iff, not_le] at h
    exact_mod_cast h

theorem floorNonneg_spec (r p : Rat) (o : List Int) (h : 0 ≤ valReal r p o) :
    2 * Real.pi * (floorNonneg r p o) ≤ valReal r p o ∧
      valReal r p o < 2 * Real.pi * (floorNonneg r p o + 1) := by
  refine floorBits_spec r p o _ 0 (by simpa using h) ?_
  simpa using lt_turnBits r p o

/-- `floorExact` is the floor of the number of turns. -/
theorem floorExact_spec (r p : Rat) (o : List Int) :
    2 * Real.pi * (floorExact r p o : ℝ) ≤ valReal r p o ∧
      valReal r p o < 2 * Real.pi * ((floorExact r p o : ℝ) + 1) := by
  unfold floorExact
  split
  · rename_i hneg
    rw [isNegVal_iff] at hneg
    have h := floorNonneg_spec (-r) (-p) (o.map (- ·)) (by rw [valReal_neg]; linarith)
    rw [valReal_neg] at h
    generalize floorNonneg (-r) (-p) (o.map (- ·)) = k at h
    have key : valReal r (p + 2 * (k : Rat)) o = valReal r p o + 2 * Real.pi * k := by
      simp [valReal]; ring
    have hpi := Real.pi_pos
    simp only
    split
    · rename_i hb
      rw [isNegVal_iff, key] at hb
      push_cast
      constructor <;> linarith [h.1, h.2]
    · rename_i hb
      rw [isNegVal_iff, key, not_lt] at hb
      push_cast
      constructor <;> linarith [h.1, h.2]
  · rename_i hneg
    rw [isNegVal_iff, not_lt] at hneg
    exact_mod_cast floorNonneg_spec r p o hneg

/-- The floor is the one number of whole turns. -/
theorem floorExact_unique (r p : Rat) (o : List Int) (n : Int) (lo : 2 * Real.pi * n ≤ valReal r p o)
    (hi : valReal r p o < 2 * Real.pi * (n + 1)) : floorExact r p o = n := by
  have h := floorExact_spec r p o
  have hpi := Real.pi_pos
  have h1 : (n : ℝ) < floorExact r p o + 1 := by nlinarith
  have h2 : (floorExact r p o : ℝ) < n + 1 := by nlinarith
  have h3 : n < floorExact r p o + 1 := by exact_mod_cast h1
  have h4 : floorExact r p o < n + 1 := by exact_mod_cast h2
  omega

/-- `mod2pi` of the reference instance: the angle less its whole turns (41_angle_engine R140). -/
theorem mod2pi_exact_real {x : Angle} (hx : isNumber x = true) :
    isNumber (mod2pi .exact x) = true ∧ 0 ≤ angleReal (mod2pi .exact x) ∧
      angleReal (mod2pi .exact x) < 2 * Real.pi ∧
      ∃ n : Int, floorTurn .exact x = some n ∧
        angleReal (mod2pi .exact x) = angleReal x - 2 * Real.pi * n := by
  cases x with
  | val r p o =>
    have hf := floorExact_spec r p o
    have hm := mulInt_exact_real (floorExact r p o) (x := turn .exact) rfl
    have hs := sub_exact_real (x := .val r p o) hx hm.1
    rw [hm.2, turn_exact_real, angleReal_val] at hs
    simp only [mod2pi, floorTurn]
    refine ⟨hs.1, ?_, ?_, _, rfl, ?_⟩
    · rw [hs.2]; linarith [hf.1]
    · rw [hs.2]; linarith [hf.2]
    · rw [hs.2, angleReal_val]; ring
  | inf a => simp [isNumber] at hx
  | nan => simp [isNumber] at hx

/-- The reference CONVERT in the reference instance is a number when the OFFSET is (41_angle_engine
R150). -/
theorem isNumber_convertReference (c : Config) (leg : Leg) (art : Art) (v : Byte)
    (hk : c.arith = .exact) (ho : isNumber (perArt c.offset art) = true) :
    isNumber (convertReference c leg art v) = true := by
  unfold convertReference
  rw [hk]
  refine (add_exact_real (mulInt_exact_real _ rfl).1 ?_).1
  split
  · exact (add_exact_real ho rfl).1
  · exact ho

theorem convert_reference (c : Config) (leg : Leg) (art : Art) (v : Byte)
    (h : c.converter = .reference) : convert c leg art v = convertReference c leg art v := by
  simp [convert, h]

theorem convert_table (c : Config) (leg : Leg) (art : Art) (v : Byte)
    (entries : Vector (Vector Angle 256) 18) (h : c.converter = .table entries) :
    convert c leg art v = entries[jointOf leg art][v.toFin] := by
  simp [convert, h]

theorem isNumber_of_isAngleOf {k : ArithKind} {x : Angle} (h : isAngleOf k x = true) :
    isNumber x = true := by
  rw [isAngleOf, Bool.and_eq_true] at h
  exact h.1

/-- Every value of a legal CONVERT table is an Angle of the instance. -/
theorem isAngleOf_table {k : ArithKind} {entries : Vector (Vector Angle 256) 18}
    (h : validConverter k (.table entries) = true) (j : Joint) (v : Fin 256) :
    isAngleOf k entries[j][v] = true := by
  rw [validConverter, List.all_eq_true] at h
  have h1 := h entries[j] (by simp)
  rw [List.all_eq_true] at h1
  exact h1 _ (by simp)

/-- CONVERT of a legal configuration in the reference instance is a number. -/
theorem isNumber_convert (c : Config) (leg : Leg) (art : Art) (v : Byte) (hk : c.arith = .exact)
    (ho : isNumber (perArt c.offset art) = true) (hc : validConverter c.arith c.converter = true) :
    isNumber (convert c leg art v) = true := by
  cases h : c.converter with
  | reference => rw [convert_reference c leg art v h]; exact isNumber_convertReference c leg art v hk ho
  | table entries =>
    rw [convert_table c leg art v entries h]
    rw [h] at hc
    exact isNumber_of_isAngleOf (isAngleOf_table hc _ _)

end Sys2Proof.Machine
end

