-- ==== Sys2Proof/Laws/State.lean ====
section
/-! SUPPORT. One lemma per field and update of the state, all true by unfolding, so that no proof
unfolds a record update. -/

namespace Sys2Proof.Machine

section
variable (s : State)

@[simp] theorem setSeq_cfg (q : SeqState) : (setSeq q s).cfg = s.cfg := rfl
@[simp] theorem setSeq_launched (q : SeqState) : (setSeq q s).launched = s.launched := rfl
@[simp] theorem setSeq_result (q : SeqState) : (setSeq q s).result = s.result := rfl
@[simp] theorem setSeq_schedule (q : SeqState) : (setSeq q s).schedule = s.schedule := rfl
@[simp] theorem setSeq_seqState (q : SeqState) : (setSeq q s).seqState = q := rfl
@[simp] theorem setSeq_rxIdx (q : SeqState) : (setSeq q s).rxIdx = s.rxIdx := rfl
@[simp] theorem setSeq_rxSum (q : SeqState) : (setSeq q s).rxSum = s.rxSum := rfl
@[simp] theorem setSeq_frame (q : SeqState) : (setSeq q s).frame = s.frame := rfl
@[simp] theorem setSeq_rxFifo (q : SeqState) : (setSeq q s).rxFifo = s.rxFifo := rfl
@[simp] theorem setSeq_rxOverrun (q : SeqState) : (setSeq q s).rxOverrun = s.rxOverrun := rfl
@[simp] theorem setSeq_eosLatch (q : SeqState) : (setSeq q s).eosLatch = s.eosLatch := rfl
@[simp] theorem setSeq_cancelLatch (q : SeqState) : (setSeq q s).cancelLatch = s.cancelLatch := rfl
@[simp] theorem setSeq_awaiting (q : SeqState) : (setSeq q s).awaiting = s.awaiting := rfl
@[simp] theorem setSeq_timer (q : SeqState) : (setSeq q s).timer = s.timer := rfl
@[simp] theorem setSeq_cause (q : SeqState) : (setSeq q s).cause = s.cause := rfl
@[simp] theorem setSeq_target (q : SeqState) : (setSeq q s).target = s.target := rfl
@[simp] theorem setSeq_zero (q : SeqState) : (setSeq q s).zero = s.zero := rfl
@[simp] theorem setSeq_settled (q : SeqState) : (setSeq q s).settled = s.settled := rfl
@[simp] theorem setSeq_moving (q : SeqState) : (setSeq q s).moving = s.moving := rfl
@[simp] theorem setSeq_driveOut (q : SeqState) : (setSeq q s).driveOut = s.driveOut := rfl
@[simp] theorem setSeq_txOut (q : SeqState) : (setSeq q s).txOut = s.txOut := rfl
@[simp] theorem setSeq_logOut (q : SeqState) : (setSeq q s).logOut = s.logOut := rfl

@[simp] theorem setFifo_cfg (f : List Byte) : (setFifo f s).cfg = s.cfg := rfl
@[simp] theorem setFifo_launched (f : List Byte) : (setFifo f s).launched = s.launched := rfl
@[simp] theorem setFifo_result (f : List Byte) : (setFifo f s).result = s.result := rfl
@[simp] theorem setFifo_schedule (f : List Byte) : (setFifo f s).schedule = s.schedule := rfl
@[simp] theorem setFifo_seqState (f : List Byte) : (setFifo f s).seqState = s.seqState := rfl
@[simp] theorem setFifo_rxIdx (f : List Byte) : (setFifo f s).rxIdx = s.rxIdx := rfl
@[simp] theorem setFifo_rxSum (f : List Byte) : (setFifo f s).rxSum = s.rxSum := rfl
@[simp] theorem setFifo_frame (f : List Byte) : (setFifo f s).frame = s.frame := rfl
@[simp] theorem setFifo_rxFifo (f : List Byte) : (setFifo f s).rxFifo = f := rfl
@[simp] theorem setFifo_rxOverrun (f : List Byte) : (setFifo f s).rxOverrun = s.rxOverrun := rfl
@[simp] theorem setFifo_eosLatch (f : List Byte) : (setFifo f s).eosLatch = s.eosLatch := rfl
@[simp] theorem setFifo_cancelLatch (f : List Byte) : (setFifo f s).cancelLatch = s.cancelLatch := rfl
@[simp] theorem setFifo_awaiting (f : List Byte) : (setFifo f s).awaiting = s.awaiting := rfl
@[simp] theorem setFifo_timer (f : List Byte) : (setFifo f s).timer = s.timer := rfl
@[simp] theorem setFifo_cause (f : List Byte) : (setFifo f s).cause = s.cause := rfl
@[simp] theorem setFifo_target (f : List Byte) : (setFifo f s).target = s.target := rfl
@[simp] theorem setFifo_zero (f : List Byte) : (setFifo f s).zero = s.zero := rfl
@[simp] theorem setFifo_settled (f : List Byte) : (setFifo f s).settled = s.settled := rfl
@[simp] theorem setFifo_moving (f : List Byte) : (setFifo f s).moving = s.moving := rfl
@[simp] theorem setFifo_driveOut (f : List Byte) : (setFifo f s).driveOut = s.driveOut := rfl
@[simp] theorem setFifo_txOut (f : List Byte) : (setFifo f s).txOut = s.txOut := rfl
@[simp] theorem setFifo_logOut (f : List Byte) : (setFifo f s).logOut = s.logOut := rfl

@[simp] theorem txEmit_cfg (b : Byte) : (txEmit b s).cfg = s.cfg := rfl
@[simp] theorem txEmit_launched (b : Byte) : (txEmit b s).launched = s.launched := rfl
@[simp] theorem txEmit_result (b : Byte) : (txEmit b s).result = s.result := rfl
@[simp] theorem txEmit_schedule (b : Byte) : (txEmit b s).schedule = s.schedule := rfl
@[simp] theorem txEmit_seqState (b : Byte) : (txEmit b s).seqState = s.seqState := rfl
@[simp] theorem txEmit_rxIdx (b : Byte) : (txEmit b s).rxIdx = s.rxIdx := rfl
@[simp] theorem txEmit_rxSum (b : Byte) : (txEmit b s).rxSum = s.rxSum := rfl
@[simp] theorem txEmit_frame (b : Byte) : (txEmit b s).frame = s.frame := rfl
@[simp] theorem txEmit_rxFifo (b : Byte) : (txEmit b s).rxFifo = s.rxFifo := rfl
@[simp] theorem txEmit_rxOverrun (b : Byte) : (txEmit b s).rxOverrun = s.rxOverrun := rfl
@[simp] theorem txEmit_eosLatch (b : Byte) : (txEmit b s).eosLatch = s.eosLatch := rfl
@[simp] theorem txEmit_cancelLatch (b : Byte) : (txEmit b s).cancelLatch = s.cancelLatch := rfl
@[simp] theorem txEmit_awaiting (b : Byte) : (txEmit b s).awaiting = s.awaiting := rfl
@[simp] theorem txEmit_timer (b : Byte) : (txEmit b s).timer = s.timer := rfl
@[simp] theorem txEmit_cause (b : Byte) : (txEmit b s).cause = s.cause := rfl
@[simp] theorem txEmit_target (b : Byte) : (txEmit b s).target = s.target := rfl
@[simp] theorem txEmit_zero (b : Byte) : (txEmit b s).zero = s.zero := rfl
@[simp] theorem txEmit_settled (b : Byte) : (txEmit b s).settled = s.settled := rfl
@[simp] theorem txEmit_moving (b : Byte) : (txEmit b s).moving = s.moving := rfl
@[simp] theorem txEmit_driveOut (b : Byte) : (txEmit b s).driveOut = s.driveOut := rfl
@[simp] theorem txEmit_txOut (b : Byte) : (txEmit b s).txOut = s.txOut ++ [b] := rfl
@[simp] theorem txEmit_logOut (b : Byte) : (txEmit b s).logOut = s.logOut := rfl

@[simp] theorem setResult_cfg (r : OpResult) : (setResult r s).cfg = s.cfg := rfl
@[simp] theorem setResult_launched (r : OpResult) : (setResult r s).launched = s.launched := rfl
@[simp] theorem setResult_result (r : OpResult) : (setResult r s).result = r := rfl
@[simp] theorem setResult_schedule (r : OpResult) : (setResult r s).schedule = s.schedule := rfl
@[simp] theorem setResult_seqState (r : OpResult) : (setResult r s).seqState = s.seqState := rfl
@[simp] theorem setResult_rxIdx (r : OpResult) : (setResult r s).rxIdx = s.rxIdx := rfl
@[simp] theorem setResult_rxSum (r : OpResult) : (setResult r s).rxSum = s.rxSum := rfl
@[simp] theorem setResult_frame (r : OpResult) : (setResult r s).frame = s.frame := rfl
@[simp] theorem setResult_rxFifo (r : OpResult) : (setResult r s).rxFifo = s.rxFifo := rfl
@[simp] theorem setResult_rxOverrun (r : OpResult) : (setResult r s).rxOverrun = s.rxOverrun := rfl
@[simp] theorem setResult_eosLatch (r : OpResult) : (setResult r s).eosLatch = s.eosLatch := rfl
@[simp] theorem setResult_cancelLatch (r : OpResult) : (setResult r s).cancelLatch = s.cancelLatch := rfl
@[simp] theorem setResult_awaiting (r : OpResult) : (setResult r s).awaiting = s.awaiting := rfl
@[simp] theorem setResult_timer (r : OpResult) : (setResult r s).timer = s.timer := rfl
@[simp] theorem setResult_cause (r : OpResult) : (setResult r s).cause = s.cause := rfl
@[simp] theorem setResult_target (r : OpResult) : (setResult r s).target = s.target := rfl
@[simp] theorem setResult_zero (r : OpResult) : (setResult r s).zero = s.zero := rfl
@[simp] theorem setResult_settled (r : OpResult) : (setResult r s).settled = s.settled := rfl
@[simp] theorem setResult_moving (r : OpResult) : (setResult r s).moving = s.moving := rfl
@[simp] theorem setResult_driveOut (r : OpResult) : (setResult r s).driveOut = s.driveOut := rfl
@[simp] theorem setResult_txOut (r : OpResult) : (setResult r s).txOut = s.txOut := rfl
@[simp] theorem setResult_logOut (r : OpResult) : (setResult r s).logOut = s.logOut := rfl

@[simp] theorem recordCause_cfg (c : Cause) : (recordCause c s).cfg = s.cfg := rfl
@[simp] theorem recordCause_launched (c : Cause) : (recordCause c s).launched = s.launched := rfl
@[simp] theorem recordCause_result (c : Cause) : (recordCause c s).result = s.result := rfl
@[simp] theorem recordCause_schedule (c : Cause) : (recordCause c s).schedule = s.schedule := rfl
@[simp] theorem recordCause_seqState (c : Cause) : (recordCause c s).seqState = s.seqState := rfl
@[simp] theorem recordCause_rxIdx (c : Cause) : (recordCause c s).rxIdx = s.rxIdx := rfl
@[simp] theorem recordCause_rxSum (c : Cause) : (recordCause c s).rxSum = s.rxSum := rfl
@[simp] theorem recordCause_frame (c : Cause) : (recordCause c s).frame = s.frame := rfl
@[simp] theorem recordCause_rxFifo (c : Cause) : (recordCause c s).rxFifo = s.rxFifo := rfl
@[simp] theorem recordCause_rxOverrun (c : Cause) : (recordCause c s).rxOverrun = s.rxOverrun := rfl
@[simp] theorem recordCause_eosLatch (c : Cause) : (recordCause c s).eosLatch = s.eosLatch := rfl
@[simp] theorem recordCause_cancelLatch (c : Cause) : (recordCause c s).cancelLatch = s.cancelLatch := rfl
@[simp] theorem recordCause_awaiting (c : Cause) : (recordCause c s).awaiting = s.awaiting := rfl
@[simp] theorem recordCause_timer (c : Cause) : (recordCause c s).timer = s.timer := rfl
@[simp] theorem recordCause_cause (c : Cause) : (recordCause c s).cause = c := rfl
@[simp] theorem recordCause_target (c : Cause) : (recordCause c s).target = s.target := rfl
@[simp] theorem recordCause_zero (c : Cause) : (recordCause c s).zero = s.zero := rfl
@[simp] theorem recordCause_settled (c : Cause) : (recordCause c s).settled = s.settled := rfl
@[simp] theorem recordCause_moving (c : Cause) : (recordCause c s).moving = s.moving := rfl
@[simp] theorem recordCause_driveOut (c : Cause) : (recordCause c s).driveOut = s.driveOut := rfl
@[simp] theorem recordCause_txOut (c : Cause) : (recordCause c s).txOut = s.txOut := rfl
@[simp] theorem recordCause_logOut (c : Cause) : (recordCause c s).logOut = s.logOut ++ [c] := rfl

@[simp] theorem raiseFault_cfg (c : Cause) : (raiseFault c s).cfg = s.cfg := rfl
@[simp] theorem raiseFault_launched (c : Cause) : (raiseFault c s).launched = s.launched := rfl
@[simp] theorem raiseFault_result (c : Cause) : (raiseFault c s).result = s.result := rfl
@[simp] theorem raiseFault_schedule (c : Cause) : (raiseFault c s).schedule = s.schedule := rfl
@[simp] theorem raiseFault_seqState (c : Cause) : (raiseFault c s).seqState = .fault := rfl
@[simp] theorem raiseFault_rxIdx (c : Cause) : (raiseFault c s).rxIdx = s.rxIdx := rfl
@[simp] theorem raiseFault_rxSum (c : Cause) : (raiseFault c s).rxSum = s.rxSum := rfl
@[simp] theorem raiseFault_frame (c : Cause) : (raiseFault c s).frame = s.frame := rfl
@[simp] theorem raiseFault_rxFifo (c : Cause) : (raiseFault c s).rxFifo = s.rxFifo := rfl
@[simp] theorem raiseFault_rxOverrun (c : Cause) : (raiseFault c s).rxOverrun = s.rxOverrun := rfl
@[simp] theorem raiseFault_eosLatch (c : Cause) : (raiseFault c s).eosLatch = s.eosLatch := rfl
@[simp] theorem raiseFault_cancelLatch (c : Cause) : (raiseFault c s).cancelLatch = s.cancelLatch := rfl
@[simp] theorem raiseFault_awaiting (c : Cause) : (raiseFault c s).awaiting = s.awaiting := rfl
@[simp] theorem raiseFault_timer (c : Cause) : (raiseFault c s).timer = s.timer := rfl
@[simp] theorem raiseFault_cause (c : Cause) : (raiseFault c s).cause = c := rfl
@[simp] theorem raiseFault_target (c : Cause) : (raiseFault c s).target = s.target := rfl
@[simp] theorem raiseFault_zero (c : Cause) : (raiseFault c s).zero = s.zero := rfl
@[simp] theorem raiseFault_settled (c : Cause) : (raiseFault c s).settled = s.settled := rfl
@[simp] theorem raiseFault_moving (c : Cause) : (raiseFault c s).moving = s.moving := rfl
@[simp] theorem raiseFault_driveOut (c : Cause) : (raiseFault c s).driveOut = s.driveOut := rfl
@[simp] theorem raiseFault_txOut (c : Cause) : (raiseFault c s).txOut = s.txOut := rfl
@[simp] theorem raiseFault_logOut (c : Cause) : (raiseFault c s).logOut = s.logOut ++ [c] := rfl

@[simp] theorem terminate_cfg (c : Cause) : (terminate c s).cfg = s.cfg := rfl
@[simp] theorem terminate_launched (c : Cause) : (terminate c s).launched = s.launched := rfl
@[simp] theorem terminate_result (c : Cause) : (terminate c s).result = s.result := rfl
@[simp] theorem terminate_schedule (c : Cause) : (terminate c s).schedule = s.schedule := rfl
@[simp] theorem terminate_seqState (c : Cause) : (terminate c s).seqState = .terminated := rfl
@[simp] theorem terminate_rxIdx (c : Cause) : (terminate c s).rxIdx = s.rxIdx := rfl
@[simp] theorem terminate_rxSum (c : Cause) : (terminate c s).rxSum = s.rxSum := rfl
@[simp] theorem terminate_frame (c : Cause) : (terminate c s).frame = s.frame := rfl
@[simp] theorem terminate_rxFifo (c : Cause) : (terminate c s).rxFifo = s.rxFifo := rfl
@[simp] theorem terminate_rxOverrun (c : Cause) : (terminate c s).rxOverrun = s.rxOverrun := rfl
@[simp] theorem terminate_eosLatch (c : Cause) : (terminate c s).eosLatch = s.eosLatch := rfl
@[simp] theorem terminate_cancelLatch (c : Cause) : (terminate c s).cancelLatch = s.cancelLatch := rfl
@[simp] theorem terminate_awaiting (c : Cause) : (terminate c s).awaiting = s.awaiting := rfl
@[simp] theorem terminate_timer (c : Cause) : (terminate c s).timer = s.timer := rfl
@[simp] theorem terminate_cause (c : Cause) : (terminate c s).cause = c := rfl
@[simp] theorem terminate_target (c : Cause) : (terminate c s).target = s.target := rfl
@[simp] theorem terminate_zero (c : Cause) : (terminate c s).zero = s.zero := rfl
@[simp] theorem terminate_settled (c : Cause) : (terminate c s).settled = s.settled := rfl
@[simp] theorem terminate_moving (c : Cause) : (terminate c s).moving = s.moving := rfl
@[simp] theorem terminate_driveOut (c : Cause) : (terminate c s).driveOut = s.driveOut := rfl
@[simp] theorem terminate_txOut (c : Cause) : (terminate c s).txOut = s.txOut := rfl
@[simp] theorem terminate_logOut (c : Cause) : (terminate c s).logOut = s.logOut ++ [c] := rfl

@[simp] theorem nackAndHunt_cfg (c : Cause) : (nackAndHunt c s).cfg = s.cfg := rfl
@[simp] theorem nackAndHunt_launched (c : Cause) : (nackAndHunt c s).launched = s.launched := rfl
@[simp] theorem nackAndHunt_result (c : Cause) : (nackAndHunt c s).result = s.result := rfl
@[simp] theorem nackAndHunt_schedule (c : Cause) : (nackAndHunt c s).schedule = s.schedule := rfl
@[simp] theorem nackAndHunt_seqState (c : Cause) : (nackAndHunt c s).seqState = .hunt := rfl
@[simp] theorem nackAndHunt_rxIdx (c : Cause) : (nackAndHunt c s).rxIdx = s.rxIdx := rfl
@[simp] theorem nackAndHunt_rxSum (c : Cause) : (nackAndHunt c s).rxSum = s.rxSum := rfl
@[simp] theorem nackAndHunt_frame (c : Cause) : (nackAndHunt c s).frame = s.frame := rfl
@[simp] theorem nackAndHunt_rxFifo (c : Cause) : (nackAndHunt c s).rxFifo = s.rxFifo := rfl
@[simp] theorem nackAndHunt_rxOverrun (c : Cause) : (nackAndHunt c s).rxOverrun = s.rxOverrun := rfl
@[simp] theorem nackAndHunt_eosLatch (c : Cause) : (nackAndHunt c s).eosLatch = s.eosLatch := rfl
@[simp] theorem nackAndHunt_cancelLatch (c : Cause) : (nackAndHunt c s).cancelLatch = s.cancelLatch := rfl
@[simp] theorem nackAndHunt_awaiting (c : Cause) : (nackAndHunt c s).awaiting = s.awaiting := rfl
@[simp] theorem nackAndHunt_timer (c : Cause) : (nackAndHunt c s).timer = s.timer := rfl
@[simp] theorem nackAndHunt_cause (c : Cause) : (nackAndHunt c s).cause = c := rfl
@[simp] theorem nackAndHunt_target (c : Cause) : (nackAndHunt c s).target = s.target := rfl
@[simp] theorem nackAndHunt_zero (c : Cause) : (nackAndHunt c s).zero = s.zero := rfl
@[simp] theorem nackAndHunt_settled (c : Cause) : (nackAndHunt c s).settled = s.settled := rfl
@[simp] theorem nackAndHunt_moving (c : Cause) : (nackAndHunt c s).moving = s.moving := rfl
@[simp] theorem nackAndHunt_driveOut (c : Cause) : (nackAndHunt c s).driveOut = s.driveOut := rfl
@[simp] theorem nackAndHunt_txOut (c : Cause) : (nackAndHunt c s).txOut = s.txOut ++ [NACK] := rfl
@[simp] theorem nackAndHunt_logOut (c : Cause) : (nackAndHunt c s).logOut = s.logOut ++ [c] := rfl

@[simp] theorem acknowledge_cfg : (acknowledge s).cfg = s.cfg := rfl
@[simp] theorem acknowledge_launched : (acknowledge s).launched = s.launched := rfl
@[simp] theorem acknowledge_result : (acknowledge s).result = s.result := rfl
@[simp] theorem acknowledge_schedule : (acknowledge s).schedule = s.schedule := rfl
@[simp] theorem acknowledge_seqState : (acknowledge s).seqState = .hunt := rfl
@[simp] theorem acknowledge_rxIdx : (acknowledge s).rxIdx = s.rxIdx := rfl
@[simp] theorem acknowledge_rxSum : (acknowledge s).rxSum = s.rxSum := rfl
@[simp] theorem acknowledge_frame : (acknowledge s).frame = s.frame := rfl
@[simp] theorem acknowledge_rxFifo : (acknowledge s).rxFifo = s.rxFifo := rfl
@[simp] theorem acknowledge_rxOverrun : (acknowledge s).rxOverrun = s.rxOverrun := rfl
@[simp] theorem acknowledge_eosLatch : (acknowledge s).eosLatch = s.eosLatch := rfl
@[simp] theorem acknowledge_cancelLatch : (acknowledge s).cancelLatch = s.cancelLatch := rfl
@[simp] theorem acknowledge_awaiting : (acknowledge s).awaiting = s.awaiting := rfl
@[simp] theorem acknowledge_timer : (acknowledge s).timer = s.timer := rfl
@[simp] theorem acknowledge_cause : (acknowledge s).cause = s.cause := rfl
@[simp] theorem acknowledge_target : (acknowledge s).target = s.target := rfl
@[simp] theorem acknowledge_zero : (acknowledge s).zero = s.zero := rfl
@[simp] theorem acknowledge_settled : (acknowledge s).settled = s.settled := rfl
@[simp] theorem acknowledge_moving : (acknowledge s).moving = s.moving := rfl
@[simp] theorem acknowledge_driveOut : (acknowledge s).driveOut = s.driveOut := rfl
@[simp] theorem acknowledge_txOut : (acknowledge s).txOut = s.txOut ++ [ACK] := rfl
@[simp] theorem acknowledge_logOut : (acknowledge s).logOut = s.logOut := rfl

@[simp] theorem publishTargets_cfg : (publishTargets s).cfg = s.cfg := rfl
@[simp] theorem publishTargets_launched : (publishTargets s).launched = s.launched := rfl
@[simp] theorem publishTargets_result : (publishTargets s).result = s.result := rfl
@[simp] theorem publishTargets_schedule : (publishTargets s).schedule = s.schedule := rfl
@[simp] theorem publishTargets_seqState : (publishTargets s).seqState = .flush := rfl
@[simp] theorem publishTargets_rxIdx : (publishTargets s).rxIdx = s.rxIdx := rfl
@[simp] theorem publishTargets_rxSum : (publishTargets s).rxSum = s.rxSum := rfl
@[simp] theorem publishTargets_frame : (publishTargets s).frame = s.frame := rfl
@[simp] theorem publishTargets_rxFifo : (publishTargets s).rxFifo = s.rxFifo := rfl
@[simp] theorem publishTargets_rxOverrun : (publishTargets s).rxOverrun = s.rxOverrun := rfl
@[simp] theorem publishTargets_eosLatch : (publishTargets s).eosLatch = s.eosLatch := rfl
@[simp] theorem publishTargets_cancelLatch : (publishTargets s).cancelLatch = s.cancelLatch := rfl
@[simp] theorem publishTargets_awaiting : (publishTargets s).awaiting = s.awaiting := rfl
@[simp] theorem publishTargets_timer : (publishTargets s).timer = s.timer := rfl
@[simp] theorem publishTargets_cause : (publishTargets s).cause = s.cause := rfl
@[simp] theorem publishTargets_target : (publishTargets s).target = convertedTargets s := rfl
@[simp] theorem publishTargets_zero : (publishTargets s).zero = s.zero := rfl
@[simp] theorem publishTargets_settled : (publishTargets s).settled = s.settled := rfl
@[simp] theorem publishTargets_moving : (publishTargets s).moving = s.moving := rfl
@[simp] theorem publishTargets_driveOut : (publishTargets s).driveOut = s.driveOut := rfl
@[simp] theorem publishTargets_txOut : (publishTargets s).txOut = s.txOut := rfl
@[simp] theorem publishTargets_logOut : (publishTargets s).logOut = s.logOut := rfl

@[simp] theorem flushInput_cfg : (flushInput s).cfg = s.cfg := rfl
@[simp] theorem flushInput_launched : (flushInput s).launched = s.launched := rfl
@[simp] theorem flushInput_result : (flushInput s).result = s.result := rfl
@[simp] theorem flushInput_schedule : (flushInput s).schedule = s.schedule := rfl
@[simp] theorem flushInput_seqState : (flushInput s).seqState = .arm := rfl
@[simp] theorem flushInput_rxIdx : (flushInput s).rxIdx = s.rxIdx := rfl
@[simp] theorem flushInput_rxSum : (flushInput s).rxSum = s.rxSum := rfl
@[simp] theorem flushInput_frame : (flushInput s).frame = s.frame := rfl
@[simp] theorem flushInput_rxFifo : (flushInput s).rxFifo = [] := rfl
@[simp] theorem flushInput_rxOverrun : (flushInput s).rxOverrun = s.rxOverrun := rfl
@[simp] theorem flushInput_eosLatch : (flushInput s).eosLatch = s.eosLatch := rfl
@[simp] theorem flushInput_cancelLatch : (flushInput s).cancelLatch = s.cancelLatch := rfl
@[simp] theorem flushInput_awaiting : (flushInput s).awaiting = s.awaiting := rfl
@[simp] theorem flushInput_timer : (flushInput s).timer = s.timer := rfl
@[simp] theorem flushInput_cause : (flushInput s).cause = s.cause := rfl
@[simp] theorem flushInput_target : (flushInput s).target = s.target := rfl
@[simp] theorem flushInput_zero : (flushInput s).zero = s.zero := rfl
@[simp] theorem flushInput_settled : (flushInput s).settled = s.settled := rfl
@[simp] theorem flushInput_moving : (flushInput s).moving = s.moving := rfl
@[simp] theorem flushInput_driveOut : (flushInput s).driveOut = s.driveOut := rfl
@[simp] theorem flushInput_txOut : (flushInput s).txOut = s.txOut := rfl
@[simp] theorem flushInput_logOut : (flushInput s).logOut = s.logOut := rfl

@[simp] theorem armWait_cfg : (armWait s).cfg = s.cfg := rfl
@[simp] theorem armWait_launched : (armWait s).launched = s.launched := rfl
@[simp] theorem armWait_result : (armWait s).result = s.result := rfl
@[simp] theorem armWait_schedule : (armWait s).schedule = s.schedule := rfl
@[simp] theorem armWait_seqState : (armWait s).seqState = .wait := rfl
@[simp] theorem armWait_rxIdx : (armWait s).rxIdx = s.rxIdx := rfl
@[simp] theorem armWait_rxSum : (armWait s).rxSum = s.rxSum := rfl
@[simp] theorem armWait_frame : (armWait s).frame = s.frame := rfl
@[simp] theorem armWait_rxFifo : (armWait s).rxFifo = s.rxFifo := rfl
@[simp] theorem armWait_rxOverrun : (armWait s).rxOverrun = s.rxOverrun := rfl
@[simp] theorem armWait_eosLatch : (armWait s).eosLatch = s.eosLatch := rfl
@[simp] theorem armWait_cancelLatch : (armWait s).cancelLatch = s.cancelLatch := rfl
@[simp] theorem armWait_awaiting : (armWait s).awaiting = true := rfl
@[simp] theorem armWait_timer : (armWait s).timer = timeoutTicks s.cfg := rfl
@[simp] theorem armWait_cause : (armWait s).cause = s.cause := rfl
@[simp] theorem armWait_target : (armWait s).target = s.target := rfl
@[simp] theorem armWait_zero : (armWait s).zero = s.zero := rfl
@[simp] theorem armWait_settled : (armWait s).settled = s.settled := rfl
@[simp] theorem armWait_moving : (armWait s).moving = s.moving := rfl
@[simp] theorem armWait_driveOut : (armWait s).driveOut = s.driveOut := rfl
@[simp] theorem armWait_txOut : (armWait s).txOut = s.txOut := rfl
@[simp] theorem armWait_logOut : (armWait s).logOut = s.logOut := rfl

@[simp] theorem closeStream_cfg : (closeStream s).cfg = s.cfg := rfl
@[simp] theorem closeStream_launched : (closeStream s).launched = s.launched := rfl
@[simp] theorem closeStream_result : (closeStream s).result = s.result := rfl
@[simp] theorem closeStream_schedule : (closeStream s).schedule = s.schedule := rfl
@[simp] theorem closeStream_seqState : (closeStream s).seqState = .terminated := rfl
@[simp] theorem closeStream_rxIdx : (closeStream s).rxIdx = s.rxIdx := rfl
@[simp] theorem closeStream_rxSum : (closeStream s).rxSum = s.rxSum := rfl
@[simp] theorem closeStream_frame : (closeStream s).frame = s.frame := rfl
@[simp] theorem closeStream_rxFifo : (closeStream s).rxFifo = s.rxFifo := rfl
@[simp] theorem closeStream_rxOverrun : (closeStream s).rxOverrun = s.rxOverrun := rfl
@[simp] theorem closeStream_eosLatch : (closeStream s).eosLatch = s.eosLatch := rfl
@[simp] theorem closeStream_cancelLatch : (closeStream s).cancelLatch = s.cancelLatch := rfl
@[simp] theorem closeStream_awaiting : (closeStream s).awaiting = s.awaiting := rfl
@[simp] theorem closeStream_timer : (closeStream s).timer = s.timer := rfl
@[simp] theorem closeStream_cause : (closeStream s).cause = .streamClosed := rfl
@[simp] theorem closeStream_target : (closeStream s).target = s.target := rfl
@[simp] theorem closeStream_zero : (closeStream s).zero = s.zero := rfl
@[simp] theorem closeStream_settled : (closeStream s).settled = s.settled := rfl
@[simp] theorem closeStream_moving : (closeStream s).moving = s.moving := rfl
@[simp] theorem closeStream_driveOut : (closeStream s).driveOut = s.driveOut := rfl
@[simp] theorem closeStream_txOut : (closeStream s).txOut = s.txOut := rfl
@[simp] theorem closeStream_logOut : (closeStream s).logOut = s.logOut ++ [.streamClosed] := rfl

@[simp] theorem cancelSequencer_cfg : (cancelSequencer s).cfg = s.cfg := rfl
@[simp] theorem cancelSequencer_launched : (cancelSequencer s).launched = s.launched := rfl
@[simp] theorem cancelSequencer_result : (cancelSequencer s).result = s.result := rfl
@[simp] theorem cancelSequencer_schedule : (cancelSequencer s).schedule = s.schedule := rfl
@[simp] theorem cancelSequencer_seqState : (cancelSequencer s).seqState = .terminated := rfl
@[simp] theorem cancelSequencer_rxIdx : (cancelSequencer s).rxIdx = s.rxIdx := rfl
@[simp] theorem cancelSequencer_rxSum : (cancelSequencer s).rxSum = s.rxSum := rfl
@[simp] theorem cancelSequencer_frame : (cancelSequencer s).frame = s.frame := rfl
@[simp] theorem cancelSequencer_rxFifo : (cancelSequencer s).rxFifo = s.rxFifo := rfl
@[simp] theorem cancelSequencer_rxOverrun : (cancelSequencer s).rxOverrun = s.rxOverrun := rfl
@[simp] theorem cancelSequencer_eosLatch : (cancelSequencer s).eosLatch = s.eosLatch := rfl
@[simp] theorem cancelSequencer_cancelLatch : (cancelSequencer s).cancelLatch = s.cancelLatch := rfl
@[simp] theorem cancelSequencer_awaiting : (cancelSequencer s).awaiting = s.awaiting := rfl
@[simp] theorem cancelSequencer_timer : (cancelSequencer s).timer = s.timer := rfl
@[simp] theorem cancelSequencer_cause : (cancelSequencer s).cause = .cancelled := rfl
@[simp] theorem cancelSequencer_target : (cancelSequencer s).target = s.target := rfl
@[simp] theorem cancelSequencer_zero : (cancelSequencer s).zero = s.zero := rfl
@[simp] theorem cancelSequencer_settled : (cancelSequencer s).settled = s.settled := rfl
@[simp] theorem cancelSequencer_moving : (cancelSequencer s).moving = s.moving := rfl
@[simp] theorem cancelSequencer_driveOut : (cancelSequencer s).driveOut = s.driveOut := rfl
@[simp] theorem cancelSequencer_txOut : (cancelSequencer s).txOut = s.txOut := rfl
@[simp] theorem cancelSequencer_logOut : (cancelSequencer s).logOut = s.logOut ++ [.cancelled] := rfl

@[simp] theorem takeSync_cfg (rest : List Byte) : (takeSync rest s).cfg = s.cfg := rfl
@[simp] theorem takeSync_launched (rest : List Byte) : (takeSync rest s).launched = s.launched := rfl
@[simp] theorem takeSync_result (rest : List Byte) : (takeSync rest s).result = s.result := rfl
@[simp] theorem takeSync_schedule (rest : List Byte) : (takeSync rest s).schedule = s.schedule := rfl
@[simp] theorem takeSync_seqState (rest : List Byte) : (takeSync rest s).seqState = .payload := rfl
@[simp] theorem takeSync_rxIdx (rest : List Byte) : (takeSync rest s).rxIdx = 0#5 := rfl
@[simp] theorem takeSync_rxSum (rest : List Byte) : (takeSync rest s).rxSum = 0x00#8 := rfl
@[simp] theorem takeSync_frame (rest : List Byte) : (takeSync rest s).frame = s.frame := rfl
@[simp] theorem takeSync_rxFifo (rest : List Byte) : (takeSync rest s).rxFifo = rest := rfl
@[simp] theorem takeSync_rxOverrun (rest : List Byte) : (takeSync rest s).rxOverrun = s.rxOverrun := rfl
@[simp] theorem takeSync_eosLatch (rest : List Byte) : (takeSync rest s).eosLatch = s.eosLatch := rfl
@[simp] theorem takeSync_cancelLatch (rest : List Byte) : (takeSync rest s).cancelLatch = s.cancelLatch := rfl
@[simp] theorem takeSync_awaiting (rest : List Byte) : (takeSync rest s).awaiting = s.awaiting := rfl
@[simp] theorem takeSync_timer (rest : List Byte) : (takeSync rest s).timer = s.timer := rfl
@[simp] theorem takeSync_cause (rest : List Byte) : (takeSync rest s).cause = s.cause := rfl
@[simp] theorem takeSync_target (rest : List Byte) : (takeSync rest s).target = s.target := rfl
@[simp] theorem takeSync_zero (rest : List Byte) : (takeSync rest s).zero = s.zero := rfl
@[simp] theorem takeSync_settled (rest : List Byte) : (takeSync rest s).settled = s.settled := rfl
@[simp] theorem takeSync_moving (rest : List Byte) : (takeSync rest s).moving = s.moving := rfl
@[simp] theorem takeSync_driveOut (rest : List Byte) : (takeSync rest s).driveOut = s.driveOut := rfl
@[simp] theorem takeSync_txOut (rest : List Byte) : (takeSync rest s).txOut = s.txOut := rfl
@[simp] theorem takeSync_logOut (rest : List Byte) : (takeSync rest s).logOut = s.logOut := rfl

@[simp] theorem takePayload_cfg (b : Byte) (rest : List Byte) : (takePayload b rest s).cfg = s.cfg := rfl
@[simp] theorem takePayload_launched (b : Byte) (rest : List Byte) : (takePayload b rest s).launched = s.launched := rfl
@[simp] theorem takePayload_result (b : Byte) (rest : List Byte) : (takePayload b rest s).result = s.result := rfl
@[simp] theorem takePayload_schedule (b : Byte) (rest : List Byte) : (takePayload b rest s).schedule = s.schedule := rfl
@[simp] theorem takePayload_seqState (b : Byte) (rest : List Byte) : (takePayload b rest s).seqState =
      if s.rxIdx + 1#5 = 21#5 then .csum else s.seqState := rfl
@[simp] theorem takePayload_rxIdx (b : Byte) (rest : List Byte) : (takePayload b rest s).rxIdx = s.rxIdx + 1#5 := rfl
@[simp] theorem takePayload_rxSum (b : Byte) (rest : List Byte) : (takePayload b rest s).rxSum = s.rxSum + b := rfl
@[simp] theorem takePayload_frame (b : Byte) (rest : List Byte) : (takePayload b rest s).frame = storeFrame b s := rfl
@[simp] theorem takePayload_rxFifo (b : Byte) (rest : List Byte) : (takePayload b rest s).rxFifo = rest := rfl
@[simp] theorem takePayload_rxOverrun (b : Byte) (rest : List Byte) : (takePayload b rest s).rxOverrun = s.rxOverrun := rfl
@[simp] theorem takePayload_eosLatch (b : Byte) (rest : List Byte) : (takePayload b rest s).eosLatch = s.eosLatch := rfl
@[simp] theorem takePayload_cancelLatch (b : Byte) (rest : List Byte) : (takePayload b rest s).cancelLatch = s.cancelLatch := rfl
@[simp] theorem takePayload_awaiting (b : Byte) (rest : List Byte) : (takePayload b rest s).awaiting = s.awaiting := rfl
@[simp] theorem takePayload_timer (b : Byte) (rest : List Byte) : (takePayload b rest s).timer = s.timer := rfl
@[simp] theorem takePayload_cause (b : Byte) (rest : List Byte) : (takePayload b rest s).cause = s.cause := rfl
@[simp] theorem takePayload_target (b : Byte) (rest : List Byte) : (takePayload b rest s).target = s.target := rfl
@[simp] theorem takePayload_zero (b : Byte) (rest : List Byte) : (takePayload b rest s).zero = s.zero := rfl
@[simp] theorem takePayload_settled (b : Byte) (rest : List Byte) : (takePayload b rest s).settled = s.settled := rfl
@[simp] theorem takePayload_moving (b : Byte) (rest : List Byte) : (takePayload b rest s).moving = s.moving := rfl
@[simp] theorem takePayload_driveOut (b : Byte) (rest : List Byte) : (takePayload b rest s).driveOut = s.driveOut := rfl
@[simp] theorem takePayload_txOut (b : Byte) (rest : List Byte) : (takePayload b rest s).txOut = s.txOut := rfl
@[simp] theorem takePayload_logOut (b : Byte) (rest : List Byte) : (takePayload b rest s).logOut = s.logOut := rfl

@[simp] theorem resetTo_cfg (init : Angles) : (resetTo init s).cfg = s.cfg := rfl
@[simp] theorem resetTo_launched (init : Angles) : (resetTo init s).launched = true := rfl
@[simp] theorem resetTo_result (init : Angles) : (resetTo init s).result = .none := rfl
@[simp] theorem resetTo_schedule (init : Angles) : (resetTo init s).schedule = s.schedule := rfl
@[simp] theorem resetTo_seqState (init : Angles) : (resetTo init s).seqState = .hunt := rfl
@[simp] theorem resetTo_rxIdx (init : Angles) : (resetTo init s).rxIdx = 0#5 := rfl
@[simp] theorem resetTo_rxSum (init : Angles) : (resetTo init s).rxSum = 0x00#8 := rfl
@[simp] theorem resetTo_frame (init : Angles) : (resetTo init s).frame = Vector.replicate 21 0x00#8 := rfl
@[simp] theorem resetTo_rxFifo (init : Angles) : (resetTo init s).rxFifo = [] := rfl
@[simp] theorem resetTo_rxOverrun (init : Angles) : (resetTo init s).rxOverrun = false := rfl
@[simp] theorem resetTo_eosLatch (init : Angles) : (resetTo init s).eosLatch = false := rfl
@[simp] theorem resetTo_cancelLatch (init : Angles) : (resetTo init s).cancelLatch = false := rfl
@[simp] theorem resetTo_awaiting (init : Angles) : (resetTo init s).awaiting = false := rfl
@[simp] theorem resetTo_timer (init : Angles) : (resetTo init s).timer = 0 := rfl
@[simp] theorem resetTo_cause (init : Angles) : (resetTo init s).cause = .none := rfl
@[simp] theorem resetTo_target (init : Angles) : (resetTo init s).target = Vector.replicate 18 .zero := rfl
@[simp] theorem resetTo_zero (init : Angles) : (resetTo init s).zero = init := rfl
@[simp] theorem resetTo_settled (init : Angles) : (resetTo init s).settled = Vector.replicate 18 false := rfl
@[simp] theorem resetTo_moving (init : Angles) : (resetTo init s).moving = true := rfl
@[simp] theorem resetTo_driveOut (init : Angles) : (resetTo init s).driveOut = Vector.replicate 18 .reset := rfl
@[simp] theorem resetTo_txOut (init : Angles) : (resetTo init s).txOut = [] := rfl
@[simp] theorem resetTo_logOut (init : Angles) : (resetTo init s).logOut = [] := rfl

end

/-- A byte received changes RX_FIFO, or RX_OVERRUN, CAUSE and LOG_OUT, and nothing else
(40_frame_codec R110). -/
theorem pushByte_cases (b : Byte) (s : State) :
    (s.rxFifo.length < s.cfg.rxFifoDepth ∧ pushByte b s = setFifo (s.rxFifo ++ [b]) s) ∨
    (¬ s.rxFifo.length < s.cfg.rxFifoDepth ∧
      pushByte b s = recordCause .rxOverrun { s with rxOverrun := true }) := by
  by_cases h : s.rxFifo.length < s.cfg.rxFifoDepth
  · exact .inl ⟨h, by rw [pushByte, if_pos h]⟩
  · exact .inr ⟨h, by rw [pushByte, if_neg h]⟩

/-- A checksum is judged in one of three ways (40_frame_codec R114). -/
theorem judgeFrame_cases (c : Byte) (rest : List Byte) (s : State) :
    (c ≠ s.rxSum ∧ judgeFrame c rest s = nackAndHunt .protocolError (setFifo rest s)) ∨
    (c = s.rxSum ∧ hasSentinel s.frame = true ∧
      judgeFrame c rest s = raiseFault .invalidArgument (setFifo rest s)) ∨
    (c = s.rxSum ∧ hasSentinel s.frame = false ∧
      judgeFrame c rest s = setSeq .publish (setFifo rest s)) := by
  unfold judgeFrame
  by_cases h : c = s.rxSum <;> cases hs : hasSentinel s.frame <;> simp [h, hs]

/-- A TIME_TICK of an armed wait counts down, and at 0 sends NACK (43_handshake R203). -/
theorem countDown_cases (s : State) :
    (s.timer - 1 ≠ 0 ∧ countDown s = { s with timer := s.timer - 1 }) ∨
    (s.timer - 1 = 0 ∧ countDown s = nackAndHunt .settleTimeout { s with timer := 0 }) := by
  unfold countDown
  by_cases h : s.timer - 1 = 0 <;> simp [h]

end Sys2Proof.Machine
end

