-- ==== Sys2Proof/Laws/Effect.lean ====
section
/-! SUPPORT. Once and for all: what an instruction can do. `Effect s t` lists every way the state
can change, and `exec_effect` says that a meaning which answers a next state is one of them; an
invariant needs one case per effect, not one per instruction. -/

namespace Sys2Proof.Machine

theorem whenEnabled_next_iff {e : Bool} {t u : State} :
    whenEnabled e t = .next u ↔ e = true ∧ u = t := by
  cases e <;> simp [whenEnabled, eq_comm]

theorem withCheckedAngles_next_iff {k : ArithKind} {v : Angles} {r : Out} {u : State} :
    withCheckedAngles k v r = .next u ↔ angleRefusal k v = none ∧ r = .next u := by
  unfold withCheckedAngles
  cases angleRefusal k v <;> simp

/-- An operand vector is accepted exactly when every angle is one of the instance. -/
theorem angleRefusal_none_iff {k : ArithKind} {v : Angles} :
    angleRefusal k v = none ↔ ∀ j : Joint, isAngleOf k v[j] = true := by
  have mem : ∀ f : Angle → Bool, v.toList.all f = true ↔ ∀ j : Joint, f v[j] = true := by
    intro f
    rw [List.all_eq_true]
    constructor
    · intro h j
      refine h _ ?_
      have : v[j] = v.toList[j.val]'(by simp) := by simp
      rw [this]
      exact List.getElem_mem _
    · intro h x hx
      obtain ⟨i, hi, rfl⟩ := List.getElem_of_mem hx
      simpa using h ⟨i, by simpa using hi⟩
  unfold angleRefusal
  constructor
  · intro h
    split at h
    · split at h
      · rename_i h2
        exact (mem _).mp h2
      · simp at h
    · simp at h
  · intro h
    have h1 : v.toList.all isNumber = true := (mem _).mpr fun j => by
      have := h j
      simp only [isAngleOf, Bool.and_eq_true] at this
      exact this.1
    rw [if_pos h1, if_pos ((mem _).mpr h)]

/-- The bytes of a list received one after another. -/
def pushBytes (l : List Byte) (s : State) : State := l.foldl (fun t b => pushByte b t) s

/-- Every way the state can change. -/
inductive Effect (s : State) : State → Prop where
  | reset (init : Angles) (h : angleRefusal s.cfg.arith init = none) : Effect s (resetTo init s)
  | receive (l : List Byte) (h : s.eosLatch = false) :
      Effect s (setResult .none (pushBytes l s))
  | endOfStream : Effect s (setResult .none { s with eosLatch := true })
  | requestCancel : Effect s (setResult .none { s with cancelLatch := true })
  | answer (r : OpResult) : Effect s (setResult r s)
  | count (h : armedWait s = true) : Effect s (setResult .none (countDown s))
  | tick (cur : Angles) (h : angleRefusal s.cfg.arith cur = none) : Effect s (tickTo cur s)
  | discard (b : Byte) (rest : List Byte) (hf : s.rxFifo = b :: rest)
      (h : reading .hunt s = true) (hb : b ≠ SYNC) : Effect s (setFifo rest s)
  | sync (rest : List Byte) (hf : s.rxFifo = SYNC :: rest) (h : reading .hunt s = true) :
      Effect s (takeSync rest s)
  | payload (b : Byte) (rest : List Byte) (hf : s.rxFifo = b :: rest)
      (h : reading .payload s = true) : Effect s (takePayload b rest s)
  | checksum (c : Byte) (rest : List Byte) (hf : s.rxFifo = c :: rest)
      (h : reading .csum s = true) : Effect s (judgeFrame c rest s)
  | close (h : eosDue s = true) : Effect s (closeStream s)
  | publish (h : s.seqState = .publish) : Effect s (publishTargets s)
  | flush (h : s.seqState = .flush) : Effect s (flushInput s)
  | arm (h : s.seqState = .arm) : Effect s (armWait s)
  | ack (h : ackDue s = true) : Effect s (acknowledge s)
  | cancel (h : cancelDue s = true) : Effect s (cancelSequencer s)

theorem discard_effect {s t : State} (h : execSeqHuntDiscard s = .next t) : Effect s t := by
  unfold execSeqHuntDiscard at h
  split at h
  · cases h
  · rename_i b rest hf
    obtain ⟨hc, rfl⟩ := whenEnabled_next_iff.mp h
    simp only [Bool.and_eq_true, bne_iff_ne] at hc
    exact .discard b rest hf hc.1 hc.2

theorem sync_effect {s t : State} (h : execSeqSync s = .next t) : Effect s t := by
  unfold execSeqSync at h
  split at h
  · cases h
  · rename_i b rest hf
    obtain ⟨hc, rfl⟩ := whenEnabled_next_iff.mp h
    simp only [Bool.and_eq_true, beq_iff_eq] at hc
    obtain ⟨hr, rfl⟩ := hc
    exact .sync rest hf hr

theorem payload_effect {s t : State} (h : execSeqPayload s = .next t) : Effect s t := by
  unfold execSeqPayload at h
  split at h
  · cases h
  · rename_i b rest hf
    obtain ⟨hc, rfl⟩ := whenEnabled_next_iff.mp h
    exact .payload b rest hf hc

theorem checksum_effect {s t : State} (h : execSeqCsum s = .next t) : Effect s t := by
  unfold execSeqCsum at h
  split at h
  · cases h
  · rename_i c rest hf
    obtain ⟨hc, rfl⟩ := whenEnabled_next_iff.mp h
    exact .checksum c rest hf hc

theorem garbage_effect {g : Byte} {s t : State} (h : execWireGarbage g s = .next t) :
    Effect s t := by
  unfold execWireGarbage at h
  split at h
  · cases h
  · rename_i b rest hf
    obtain ⟨hc, rfl⟩ := whenEnabled_next_iff.mp h
    simp only [Bool.and_eq_true, bne_iff_ne] at hc
    exact .discard b rest hf hc.1.1 hc.2

theorem wirePayload_effect {p : Byte} {s t : State} (h : execWirePayload p s = .next t) :
    Effect s t := by
  unfold execWirePayload at h
  split at h
  · cases h
  · rename_i b rest hf
    obtain ⟨hc, rfl⟩ := whenEnabled_next_iff.mp h
    simp only [Bool.and_eq_true] at hc
    exact .payload b rest hf hc.1

theorem wireChecksum_effect {c : Byte} {s t : State} (h : execWireChecksum c s = .next t) :
    Effect s t := by
  unfold execWireChecksum at h
  split at h
  · cases h
  · rename_i b rest hf
    obtain ⟨hc, rfl⟩ := whenEnabled_next_iff.mp h
    simp only [Bool.and_eq_true] at hc
    exact .checksum b rest hf hc.1

/-- A checksum that is due to mismatch is judged so by SEQ_CSUM. -/
theorem mismatchDue_effect {s : State} (h : mismatchDue s = true) :
    Effect s (nackAndHunt .protocolError (setFifo s.rxFifo.tail s)) := by
  unfold mismatchDue at h
  split at h
  · cases h
  · rename_i c rest hf
    simp only [Bool.and_eq_true, bne_iff_ne] at h
    have := Effect.checksum c rest hf h.1
    rcases judgeFrame_cases c rest s with ⟨_, he⟩ | ⟨he, _⟩ | ⟨he, _⟩
    · rw [hf, List.tail_cons, ← he]; exact this
    · exact absurd he h.2
    · exact absurd he h.2

/-- A sentinel that is due is judged so by SEQ_CSUM. -/
theorem sentinelDue_effect {s : State} (h : sentinelDue s = true) :
    Effect s (raiseFault .invalidArgument (setFifo s.rxFifo.tail s)) := by
  unfold sentinelDue at h
  split at h
  · cases h
  · rename_i c rest hf
    simp only [Bool.and_eq_true, beq_iff_eq] at h
    have := Effect.checksum c rest hf h.1.1
    rcases judgeFrame_cases c rest s with ⟨he, _⟩ | ⟨_, _, he⟩ | ⟨_, he, _⟩
    · exact absurd h.1.2 he
    · rw [hf, List.tail_cons, ← he]; exact this
    · rw [he] at h; cases h.2

theorem expiryDue_effect {s : State} (h : expiryDue s = true) :
    Effect s (setResult .none (countDown s)) := by
  simp only [expiryDue, Bool.and_eq_true] at h
  exact .count h.1

theorem overrunDue_effect {s : State} (h : overrunDue s = true) :
    Effect s (setResult .none (recordCause .rxOverrun { s with rxOverrun := true })) := by
  simp only [overrunDue, Bool.and_eq_true, Bool.not_eq_true', decide_eq_true_eq] at h
  have := Effect.receive (s := s) [0x00#8] h.1
  rw [pushBytes, List.foldl_cons, List.foldl_nil, pushByte, if_neg h.2] at this
  exact this

theorem tickEmitting_effect {d : DriveCode} {cur : Angles} {s t : State}
    (h : tickEmitting d cur s = .next t) : Effect s t := by
  obtain ⟨h1, h2⟩ := withCheckedAngles_next_iff.mp h
  obtain ⟨_, rfl⟩ := whenEnabled_next_iff.mp h2
  exact .tick cur h1

theorem checkedReset_effect {init : Angles} {s t : State}
    (h : withCheckedAngles s.cfg.arith init (.next (resetTo init s)) = .next t) : Effect s t := by
  obtain ⟨h1, h2⟩ := withCheckedAngles_next_iff.mp h
  cases h2
  exact .reset init h1

theorem frame_effect {p : Payload} {cs : Byte} {s t : State} (h : execFrame p cs s = .next t) :
    Effect s t := by
  unfold execFrame at h
  cases he : s.eosLatch with
  | true => rw [he, if_pos rfl] at h; cases h
  | false =>
    rw [he, if_neg Bool.false_ne_true] at h
    have hr := Effect.receive (frameBytes p cs).toList he
    rw [pushBytes] at hr
    rw [← Host.Outcome.next.inj h]
    exact hr

/-- A meaning that answers a next state has one of the effects listed. -/
theorem exec_effect {i : Instr} {s t : State} (h : exec i s = .next t) : Effect s t := by
  cases i with
  | reset init => exact checkedReset_effect h
  | rxByte b =>
    simp only [exec, execRxByte] at h
    split at h
    · cases h
    · rename_i he
      cases h
      exact .receive [b] (by simpa using he)
  | rxEos => cases h; exact .endOfStream
  | cancel => cases h; exact .requestCancel
  | tick cur =>
    obtain ⟨h1, h2⟩ := withCheckedAngles_next_iff.mp h
    cases h2
    exact .tick cur h1
  | timeTick =>
    simp only [exec, execTimeTick] at h
    split at h
    · rename_i ha
      cases h
      exact .count ha
    · cases h
      exact .answer _
  | readReg n => cases h; exact .answer _
  | snapshot => cases h; exact .answer _
  | encode p => cases h; exact .answer _
  | reserved9 imm => cases h
  | reservedAB imm low => cases h
  | reservedCF imm low => cases h
  | seqHuntDiscard => exact discard_effect h
  | seqSync => exact sync_effect h
  | seqPayload => exact payload_effect h
  | seqCsum => exact checksum_effect h
  | seqEos => obtain ⟨hc, rfl⟩ := whenEnabled_next_iff.mp h; exact .close hc
  | seqPublish =>
    obtain ⟨hc, rfl⟩ := whenEnabled_next_iff.mp h
    exact .publish (by simpa using hc)
  | seqFlush => obtain ⟨hc, rfl⟩ := whenEnabled_next_iff.mp h; exact .flush (by simpa using hc)
  | seqArm => obtain ⟨hc, rfl⟩ := whenEnabled_next_iff.mp h; exact .arm (by simpa using hc)
  | seqAck => obtain ⟨hc, rfl⟩ := whenEnabled_next_iff.mp h; exact .ack hc
  | seqCancel => obtain ⟨hc, rfl⟩ := whenEnabled_next_iff.mp h; exact .cancel hc
  | wireSync => exact sync_effect h
  | wireGarbage b => exact garbage_effect h
  | wirePayload b => exact wirePayload_effect h
  | wireChecksum c => exact wireChecksum_effect h
  | frame p cs =>
    exact frame_effect h
  | ack => obtain ⟨hc, rfl⟩ := whenEnabled_next_iff.mp h; exact .ack hc
  | nack =>
    simp only [exec, execNack] at h
    split at h
    · rename_i hm
      cases h
      exact mismatchDue_effect hm
    · obtain ⟨hc, rfl⟩ := whenEnabled_next_iff.mp h
      exact expiryDue_effect hc
  | driveZero cur => exact tickEmitting_effect h
  | driveSoftPos cur => exact tickEmitting_effect h
  | driveSoftNeg cur => exact tickEmitting_effect h
  | driveFullPos cur => exact tickEmitting_effect h
  | driveFullNeg cur => exact tickEmitting_effect h
  | driveReset init => exact checkedReset_effect h
  | causeNone init => exact checkedReset_effect h
  | causeProtocolError =>
    obtain ⟨hc, rfl⟩ := whenEnabled_next_iff.mp h
    exact mismatchDue_effect hc
  | causeInvalidArgument =>
    obtain ⟨hc, rfl⟩ := whenEnabled_next_iff.mp h
    exact sentinelDue_effect hc
  | causeStreamClosed => obtain ⟨hc, rfl⟩ := whenEnabled_next_iff.mp h; exact .close hc
  | causeCancelled => obtain ⟨hc, rfl⟩ := whenEnabled_next_iff.mp h; exact .cancel hc
  | causeSettleTimeout =>
    obtain ⟨hc, rfl⟩ := whenEnabled_next_iff.mp h
    exact expiryDue_effect hc
  | causeRxOverrun =>
    obtain ⟨hc, rfl⟩ := whenEnabled_next_iff.mp h
    exact overrunDue_effect hc

/-! ## What a step of the machine can do -/

/-- The SEQ agent's move has one of the effects. -/
theorem seqMove_effect {s t : State} (h : seqMove s = .next t) : Effect s t := by
  unfold seqMove at h
  split at h
  · split at h
    · exact exec_effect h
    · cases h
  · cases h

theorem runLaunched_effect {i : Instr} {s t : State} (h : runLaunched i s = .next t) :
    Effect s t := by
  unfold runLaunched at h
  split at h
  · exact exec_effect h
  · cases h

theorem takeTurn_effect {u : Turn} {s t : State} (h : takeTurn u s = .next t) : Effect s t := by
  unfold takeTurn at h
  split at h
  · exact seqMove_effect h
  · exact runLaunched_effect h
  · split at h
    · exact runLaunched_effect h
    · cases h

/-- A step has one of the effects, on the state less the turn it uses up. -/
theorem step_effect {s t : State} (h : step s = .next t) :
    Effect { s with schedule := s.schedule.tail } t := by
  unfold step nextStep at h
  split at h
  · rename_i hs
    rw [hs, List.tail_nil, ← hs]
    exact seqMove_effect h
  · rename_i u rest hs
    rw [hs, List.tail_cons]
    exact takeTurn_effect h

/-- Bytes received change RX_FIFO, RX_OVERRUN, CAUSE and LOG_OUT only, and RX_FIFO stays within its
capacity. -/
theorem pushBytes_frame (l : List Byte) (s : State) :
    pushBytes l s = { s with
      rxFifo := (pushBytes l s).rxFifo, rxOverrun := (pushBytes l s).rxOverrun,
      cause := (pushBytes l s).cause, logOut := (pushBytes l s).logOut } ∧
    (s.rxFifo.length ≤ s.cfg.rxFifoDepth → (pushBytes l s).rxFifo.length ≤ s.cfg.rxFifoDepth) := by
  induction l generalizing s with
  | nil => exact ⟨rfl, id⟩
  | cons b l ih =>
    have hstep : pushBytes (b :: l) s = pushBytes l (pushByte b s) := rfl
    obtain ⟨h1, h2⟩ := ih (pushByte b s)
    rcases pushByte_cases b s with ⟨hlt, he⟩ | ⟨hlt, he⟩
    · rw [hstep]
      rw [he] at h1 h2 ⊢
      refine ⟨by rw [h1]; rfl, fun _ => h2 ?_⟩
      simp only [setFifo_rxFifo, setFifo_cfg, List.length_append, List.length_singleton]
      omega
    · rw [hstep]
      rw [he] at h1 h2 ⊢
      exact ⟨by rw [h1]; rfl, fun hle => h2 hle⟩

end Sys2Proof.Machine
end

