-- ==== Sys2Proof/Laws/PerInstr.lean ====
section
/-! SUPPORT. Statements for all instructions, one lemma per constructor. -/

namespace Sys2Proof.Laws.Encoding

/-- What is shown of each instruction as syntax: a well-formed instruction that has an encoding is
what the decoder reads from it (30_encoding R81 to R92). -/
def Statement (i : Instr) : Prop :=
  ∀ p : Packet, wellFormed i = true → encode i = some p → decode (readingState i) p = .ok i

theorem withAngles_toList (v : Angles) (f : Angles → Instr) :
    withAngles (.angles v.toList) f = .ok (f v) := by
  obtain ⟨a, h⟩ := v
  simp [withAngles, Vector.toList, h]

theorem withBytes_toList (v : Payload) (f : Payload → Instr) :
    withBytes (.bytes v.toList) f = .ok (f v) := by
  obtain ⟨a, h⟩ := v
  simp [withBytes, Vector.toList, h]

theorem opWord_op (op : BitVec 4) (imm : BitVec 8) : (opWord op imm).extractLsb' 0 4 = op := by
  ext i hi
  rw [BitVec.getElem_extractLsb']
  exact BitVec.getLsbD_append.trans (by simp [hi])

theorem opWord_imm (op : BitVec 4) (imm : BitVec 8) : (opWord op imm).extractLsb' 4 8 = imm := by
  ext i hi
  rw [BitVec.getElem_extractLsb']
  exact BitVec.getLsbD_append.trans (by simp [hi])

theorem frameBytes_sync (p : Payload) (cs : Byte) : (frameBytes p cs)[0] = Machine.SYNC := by
  simp [frameBytes]

theorem frameBytes_checksum (p : Payload) (cs : Byte) : (frameBytes p cs)[22] = cs := by
  simp [frameBytes]

theorem frameBytes_payload (p : Payload) (cs : Byte) :
    (Vector.ofFn fun i : ServoIndex => (frameBytes p cs)[i.val + 1]) = p := by
  refine Vector.ext fun i hi => ?_
  have h : i + 1 < 22 := by omega
  simp [frameBytes, h]

section
variable (init cur : Angles) (b : Byte) (p : Payload)

theorem reset : Statement (.reset init) := by
  rintro _ - ⟨⟩
  simp [decode, decodeOp, opWord_op, opWord_imm, immZero, withAngles_toList]
theorem rxByte : Statement (.rxByte b) := by
  rintro _ - ⟨⟩
  simp [decode, decodeOp, opWord_op, opWord_imm, withNothing]
theorem rxEos : Statement .rxEos := by
  rintro _ - ⟨⟩; rfl
theorem cancel : Statement .cancel := by
  rintro _ - ⟨⟩; rfl
theorem tick : Statement (.tick cur) := by
  rintro _ - ⟨⟩
  simp [decode, decodeOp, opWord_op, opWord_imm, immZero, withAngles_toList]
theorem timeTick : Statement .timeTick := by
  rintro _ - ⟨⟩; rfl
theorem readReg : Statement (.readReg b) := by
  rintro _ - ⟨⟩
  simp [decode, decodeOp, opWord_op, opWord_imm, withNothing]
theorem snapshot : Statement .snapshot := by
  rintro _ - ⟨⟩; rfl
theorem encode : Statement (.encode p) := by
  rintro _ - ⟨⟩
  simp [decode, decodeOp, opWord_op, opWord_imm, immZero, withBytes_toList]
theorem reserved9 : Statement (.reserved9 b) := by
  rintro _ - ⟨⟩
  simp [decode, decodeOp, opWord_op, opWord_imm]
theorem reservedAB (low : BitVec 1) : Statement (.reservedAB b low) := by
  rintro _ - ⟨⟩
  obtain rfl | rfl : low = 0#1 ∨ low = 1#1 := by revert low; decide
  all_goals simp [decode, decodeOp, opWord_op, opWord_imm]
theorem reservedCF (low : BitVec 2) : Statement (.reservedCF b low) := by
  rintro _ - ⟨⟩
  obtain rfl | rfl | rfl | rfl : low = 0#2 ∨ low = 1#2 ∨ low = 2#2 ∨ low = 3#2 := by
    revert low; decide
  all_goals simp [decode, decodeOp, opWord_op, opWord_imm]
theorem seqHuntDiscard : Statement .seqHuntDiscard := by rintro _ - ⟨⟩
theorem seqSync : Statement .seqSync := by rintro _ - ⟨⟩
theorem seqPayload : Statement .seqPayload := by rintro _ - ⟨⟩
theorem seqCsum : Statement .seqCsum := by rintro _ - ⟨⟩
theorem seqEos : Statement .seqEos := by rintro _ - ⟨⟩
theorem seqPublish : Statement .seqPublish := by rintro _ - ⟨⟩
theorem seqFlush : Statement .seqFlush := by rintro _ - ⟨⟩
theorem seqArm : Statement .seqArm := by rintro _ - ⟨⟩
theorem seqAck : Statement .seqAck := by rintro _ - ⟨⟩
theorem seqCancel : Statement .seqCancel := by rintro _ - ⟨⟩
theorem wireSync : Statement .wireSync := by
  rintro _ - ⟨⟩; rfl
theorem wireGarbage : Statement (.wireGarbage b) := by
  rintro _ hw ⟨⟩
  have hb : b ≠ Machine.SYNC := by simpa [wellFormed] using hw
  simp [decode, readingState, decodeWire, hb]
theorem wirePayload : Statement (.wirePayload b) := by
  rintro _ - ⟨⟩; rfl
theorem wireChecksum : Statement (.wireChecksum b) := by
  rintro _ - ⟨⟩; rfl
theorem frame : Statement (.frame p b) := by
  rintro _ - ⟨⟩
  simp only [decode, decodeFrame, frameBytes_sync, frameBytes_payload, frameBytes_checksum, if_pos]
theorem ack : Statement .ack := by
  rintro _ - ⟨⟩; rfl
theorem nack : Statement .nack := by
  rintro _ - ⟨⟩; rfl
theorem driveZero : Statement (.driveZero cur) := by
  rintro _ - ⟨⟩; exact withAngles_toList cur _
theorem driveSoftPos : Statement (.driveSoftPos cur) := by
  rintro _ - ⟨⟩; exact withAngles_toList cur _
theorem driveSoftNeg : Statement (.driveSoftNeg cur) := by
  rintro _ - ⟨⟩; exact withAngles_toList cur _
theorem driveFullPos : Statement (.driveFullPos cur) := by
  rintro _ - ⟨⟩; exact withAngles_toList cur _
theorem driveFullNeg : Statement (.driveFullNeg cur) := by
  rintro _ - ⟨⟩; exact withAngles_toList cur _
theorem driveReset : Statement (.driveReset init) := by
  rintro _ - ⟨⟩; exact withAngles_toList init _
theorem causeNone : Statement (.causeNone init) := by
  rintro _ - ⟨⟩; exact withAngles_toList init _
theorem causeProtocolError : Statement .causeProtocolError := by
  rintro _ - ⟨⟩; rfl
theorem causeInvalidArgument : Statement .causeInvalidArgument := by
  rintro _ - ⟨⟩; rfl
theorem causeStreamClosed : Statement .causeStreamClosed := by
  rintro _ - ⟨⟩; rfl
theorem causeCancelled : Statement .causeCancelled := by
  rintro _ - ⟨⟩; rfl
theorem causeSettleTimeout : Statement .causeSettleTimeout := by
  rintro _ - ⟨⟩; rfl
theorem causeRxOverrun : Statement .causeRxOverrun := by
  rintro _ - ⟨⟩; rfl

end

end Sys2Proof.Laws.Encoding
end

