-- ==== Sys2Proof/Laws/Tick.lean ====
section
/-! SUPPORT. What a TICK does, joint by joint (42_joint_servo R160 to R165). -/

namespace Sys2Proof.Machine

/-- A stop transition occurs within the first `n` joint updates. -/
def StopWithin (cur : Angles) (s : State) (n : Nat) : Prop := ∃ k, k < n ∧ StopAt cur s k

/-- The state and the `stopped` bit after the first `n` joint updates. -/
def TickPrefix (cur : Angles) (s : State) (n : Nat) (t : State) (stopped : Bool) : Prop :=
  t = { s with
      settled := t.settled, driveOut := t.driveOut,
      moving := t.moving, awaiting := t.awaiting } ∧
    (∀ j : Joint, t.settled[j] = settledAfter cur s n j) ∧
    (∀ j : Joint, t.driveOut[j] =
      if j.val < n then driveCode (jointEval cur s j).tier (jointEval cur s j).dir
      else s.driveOut[j]) ∧
    t.moving = movingAfter cur s n ∧
    (t.awaiting = true ↔ s.awaiting = true ∧ ¬ StopWithin cur s n) ∧
    (stopped = true ↔ StopWithin cur s n)

theorem anyUnsettled_iff (v : Vector Bool 18) :
    anyUnsettled v = true ↔ ∃ j : Joint, v[j] = false := by
  rw [anyUnsettled, List.any_eq_true]
  constructor
  · rintro ⟨b, hb, hn⟩
    obtain ⟨i, hi, rfl⟩ := List.getElem_of_mem hb
    have hi' : i < 18 := by simpa using hi
    exact ⟨⟨i, hi'⟩, by simpa using hn⟩
  · rintro ⟨j, hj⟩
    refine ⟨v[j], ?_, by rw [hj]; rfl⟩
    have : v[j] = v.toList[j.val]'(by simp) := by simp
    rw [this]
    exact List.getElem_mem _

/-- The engine's answer for a joint depends on the configuration, ZERO and TARGET only. -/
theorem jointEval_congr (cur : Angles) {s t : State} (h1 : t.cfg = s.cfg) (h2 : t.zero = s.zero)
    (h3 : t.target = s.target) (j : Joint) : jointEval cur t j = jointEval cur s j := by
  simp [jointEval, h1, h2, h3]

theorem stopWithin_succ (cur : Angles) (s : State) (n : Nat) :
    StopWithin cur s (n + 1) ↔ StopWithin cur s n ∨ StopAt cur s n := by
  constructor
  · rintro ⟨k, hk, h⟩
    rcases Nat.lt_succ_iff_lt_or_eq.mp hk with h' | rfl
    · exact .inl ⟨k, h', h⟩
    · exact .inr h
  · rintro (⟨k, hk, h⟩ | h)
    · exact ⟨k, by omega, h⟩
    · exact ⟨n, by omega, h⟩

/-- One more joint update. -/
theorem updateJoint_spec (cur : Angles) (s : State) (acc : State × Bool) (j : Joint)
    (h : TickPrefix cur s j.val acc.1 acc.2) :
    TickPrefix cur s (j.val + 1) (updateJoint cur acc j).1 (updateJoint cur acc j).2 := by
  obtain ⟨hs, hset, hdrv, hmov, haw, hst⟩ := h
  have hev : jointEval cur acc.1 j = jointEval cur s j :=
    jointEval_congr cur (by rw [hs]) (by rw [hs]) (by rw [hs]) j
  have hset' : ∀ i : Joint, (acc.1.settled.set j (jointEval cur s j).settled)[i]
      = settledAfter cur s (j.val + 1) i := by
    intro i
    by_cases hij : i = j
    · subst hij
      simp [settledAfter]
    · have hne : j.val ≠ i.val := fun h => hij (Fin.ext h.symm)
      have h1 : (acc.1.settled.set j (jointEval cur s j).settled)[i] = acc.1.settled[i] := by
        simp only [Fin.getElem_fin]
        rw [Vector.getElem_set_ne _ _ hne]
      rw [h1, hset i]
      simp only [settledAfter]
      have : (i.val < j.val) ↔ (i.val < j.val + 1) := by omega
      simp only [this]
  have hm : anyUnsettled (acc.1.settled.set j (jointEval cur s j).settled)
      = movingAfter cur s (j.val + 1) := by
    rw [movingAfter, if_neg (by omega), Bool.eq_iff_iff, anyUnsettled_iff, decide_eq_true_iff]
    simp only [hset']
  have hstop : (acc.1.moving && !movingAfter cur s (j.val + 1)) = true ↔ StopAt cur s j.val := by
    rw [hmov]
    simp [StopAt, j.isLt]
  refine ⟨?_, ?_, ?_, ?_, ?_, ?_⟩
  · simp only [updateJoint]
    rw [hs]
  · intro i
    simp only [updateJoint, hev]
    exact hset' i
  · intro i
    simp only [updateJoint, hev]
    by_cases hij : i = j
    · subst hij
      simp
    · have hne : j.val ≠ i.val := fun h => hij (Fin.ext h.symm)
      have h1 : (acc.1.driveOut.set j (driveCode (jointEval cur s j).tier (jointEval cur s j).dir))[i]
          = acc.1.driveOut[i] := by
        simp only [Fin.getElem_fin]
        rw [Vector.getElem_set_ne _ _ hne]
      rw [h1, hdrv i]
      have : (i.val < j.val) ↔ (i.val < j.val + 1) := by omega
      simp only [this]
  · simp only [updateJoint, hev]
    exact hm
  · simp only [updateJoint, hev, hm]
    rw [stopWithin_succ, ← hstop]
    by_cases hb : (acc.1.moving && !movingAfter cur s (j.val + 1)) = true
    · rw [if_pos hb]
      simp only [hb, Bool.false_eq_true, or_true, not_true, and_false]
    · rw [if_neg hb, haw]
      simp only [hb, Bool.false_eq_true, or_false]
  · simp only [updateJoint, hev, hm]
    rw [stopWithin_succ, ← hstop, Bool.or_eq_true, hst]

/-- What `n` joint updates of a TICK do. -/
theorem tickAfter_spec (cur : Angles) (s : State) (n : Nat) (hn : n ≤ 18) :
    TickPrefix cur s n (tickAfter cur s n).1 (tickAfter cur s n).2 := by
  unfold tickAfter
  induction n with
  | zero =>
    refine ⟨rfl, ?_, ?_, ?_, ?_, ?_⟩
    · intro j; simp [settledAfter]
    · intro j; simp
    · simp [movingAfter]
    · simp [StopWithin]
    · simp [StopWithin]
  | succ n ih =>
    have hlt : n < 18 := by omega
    rw [List.take_add_one, List.foldl_append]
    have : (List.finRange 18)[n]?.toList = [(⟨n, hlt⟩ : Joint)] := by
      rw [List.getElem?_eq_getElem (by simpa using hlt)]
      simp
    rw [this]
    exact updateJoint_spec cur s _ ⟨n, hlt⟩ (ih (by omega))

/-- The 18 joint updates are the whole loop. -/
theorem tickAfter_all (cur : Angles) (s : State) : tickAfter cur s 18 = tickJoints cur s := by
  rw [tickAfter, tickJoints, List.take_of_length_le (by simp)]

/-- The whole TICK: every SETTLED, every DRIVE_OUT, MOVING, AWAITING and the `stopped` bit, and
nothing else (42_joint_servo R160 to R165). -/
theorem tickJoints_spec (cur : Angles) (s : State) :
    TickPrefix cur s 18 (tickJoints cur s).1 (tickJoints cur s).2 := by
  rw [← tickAfter_all]
  exact tickAfter_spec cur s 18 le_rfl

/-- The state a TICK leaves, without the loop: a state and a `stopped` bit of which `TickPrefix`
says everything, and the result. Proofs cite this and never unfold `tickTo`. -/
theorem tickTo_spec (cur : Angles) (s : State) : ∃ (t : State) (stopped : Bool),
    tickTo cur s = setResult (.tick t.driveOut stopped) t ∧ TickPrefix cur s 18 t stopped :=
  ⟨(tickJoints cur s).1, (tickJoints cur s).2, rfl, tickJoints_spec cur s⟩

end Sys2Proof.Machine
end

