-- ==== Sys2Proof/Tests/Slice0.lean ====
section
/-! SUPPORT. Tests of the model on fixed values, and a witness for each obligation's hypotheses.
Expected values come from the spec's tables and examples and from 95_test_vectors, whose names (C1,
T5, H3 ...) the comments cite. -/

namespace Sys2Proof.Tests

open Sys2Proof.Machine

-- One theorem after another: a hundred kernel evaluations at once would each hold a thread.
set_option Elab.async false

/-! ## Helpers -/

/-- What is read off a next state. -/
def after {α : Type} (o : Out) (f : State → α) : Option α :=
  match o with
  | .next s => some (f s)
  | .fault _ => none
  | .refused _ => none

/-- The refusal, if the outcome is one. -/
def refusal (o : Out) : Option Refusal :=
  match o with
  | .next _ => none
  | .fault _ => none
  | .refused r => some r

/-- The outcome is a next state. -/
def isNext (o : Out) : Bool := (after o fun _ => ()).isSome

/-- CLEAN_LAUNCH in a given SEQ_STATE with the given RX_FIFO. -/
def at_ (q : SeqState) (fifo : List Byte) : State :=
  { State.reset with seqState := q, rxFifo := fifo }

/-- A wait (H1 to H3). -/
def waiting (awaiting : Bool) (timer : Nat) : State :=
  { State.reset with seqState := .wait, awaiting := awaiting, timer := timer }

/-- CLEAN_LAUNCH with the SEQ agent's and the host's turns still to come. -/
def scheduled (l : List Turn) : State := { State.reset with schedule := l }

/-- CLEAN_LAUNCH with the smallest RX_FIFO that holds a frame. -/
def narrow : State := { State.reset with cfg := { testInstance with rxFifoDepth := 23 } }

/-- A state about to arm, with the smallest legal TIMEBASE_HZ. -/
def slow : State :=
  { State.reset with seqState := .arm, cfg := { testInstance with timebaseHz := 1 } }

/-- SEQ_STATE CSUM with a byte to judge, the running sum and the frame. -/
def judging (c sum : Byte) (p : Payload) : State :=
  { State.reset with seqState := .csum, rxFifo := [c], rxSum := sum, frame := p }

/-- A cancellation is latched. -/
def cancelled (s : State) : State := { s with cancelLatch := true }

/-- The stream is closed. -/
def closed (s : State) : State := { s with eosLatch := true }

/-- Before the first RESET. -/
def unlaunched (s : State) : State := { s with launched := false }

/-- 18 angles, 0 but for joint `j`. -/
def oneAngle (j : Joint) (x : Angle) : Angles := zeroAngles.set j x

/-- The rational number `n / d` as an angle. -/
def num (n : Int) (d : Nat) : Angle := .val ((n : Rat) / (d : Rat)) 0 []

/-- `n·π/d`. -/
def piTimes (n : Int) (d : Nat) : Angle := .val 0 ((n : Rat) / (d : Rat)) []

/-- CLEAN_LAUNCH in the binary64 instance. -/
def launch64 : State := { State.reset with cfg := { testInstance with arith := .binary64 } }

/-- A payload given by its first byte and the other twenty. -/
def payload (b c : Byte) : Payload := (Vector.replicate 21 c).set 0 b

/-- The payload 7F×18, 01×3 of S7. -/
def midPayload : Payload := Vector.ofFn fun i => if i.val < 18 then 0x7F#8 else 0x01#8

/-- The drive codes a TICK leaves, as 4-bit codes. -/
def codes (o : Out) : Option (List (BitVec 4)) := after o fun s => s.driveOut.toList.map driveBits

/-! ## Decoding: words written out from 30_encoding -/

/-- R84: the example word 0xFF1 is RX_BYTE 0xFF. -/
theorem test_decode_op : decode .hunt (.op 0b111111110001#12 .empty) = .ok (.rxByte 0xFF#8) := by
  decide +kernel
/-- R90: the words 0x002, 0x003, 0x004, 0x005 and 0x007. -/
theorem test_decode_plain_ops : decode .hunt (.op 0b000000000010#12 .empty) = .ok .rxEos ∧
    decode .hunt (.op 0b000000000011#12 .empty) = .ok .cancel ∧
    decode .hunt (.op 0b000000000100#12 (.angles zeroAngles.toList)) = .ok (.tick zeroAngles) ∧
    decode .hunt (.op 0b000000000101#12 .empty) = .ok .timeTick ∧
    decode .hunt (.op 0b000000000111#12 .empty) = .ok .snapshot := by decide +kernel
/-- R90: `{n, 0x6}` is READ_REG n. -/
theorem test_decode_readReg :
    decode .hunt (.op 0b100101000110#12 .empty) = .ok (.readReg 0x94#8) := by decide +kernel
/-- R90: 0x000 with 18 angles is RESET. -/
theorem test_decode_reset :
    decode .hunt (.op 0b000000000000#12 (.angles (List.replicate 18 (num 1 2))))
      = .ok (.reset (Vector.replicate 18 (num 1 2))) := by decide +kernel
/-- R90: 0x008 with 21 bytes is ENCODE. -/
theorem test_decode_encode :
    decode .hunt (.op 0b000000001000#12 (.bytes (List.replicate 21 0x01#8)))
      = .ok (.encode (Vector.replicate 21 0x01#8)) := by decide +kernel
/-- R91, T12: 17 angles are refused. -/
theorem test_decode_short_vector :
    decode .hunt (.op 0x004#12 (.angles (List.replicate 17 .zero))) = .error .wrongShape := by
  decide +kernel
/-- R91: IMM8 must be 0 for SNAPSHOT. -/
theorem test_decode_imm : decode .hunt (.op 0x017#12 .empty) = .error .immNotZero := by
  decide +kernel
/-- R90, R91: OP 0x9 to 0xF are RESERVED. -/
theorem test_decode_reserved : decode .hunt (.op 0b111111111001#12 .empty) = .ok (.reserved9 0xFF#8) ∧
    decode .hunt (.op 0b000000001010#12 .empty) = .ok (.reservedAB 0x00#8 0#1) ∧
    decode .hunt (.op 0b000000001011#12 .empty) = .ok (.reservedAB 0x00#8 1#1) ∧
    decode .hunt (.op 0b000000001100#12 .empty) = .ok (.reservedCF 0x00#8 0#2) ∧
    decode .hunt (.op 0b000000011111#12 .empty) = .ok (.reservedCF 0x01#8 3#2) := by decide +kernel
/-- R85: 0xFF is SYNC in HUNT and data in PAYLOAD. -/
theorem test_decode_wire : decode .hunt (.wire 0b11111111#8) = .ok .wireSync ∧
    decode .payload (.wire 0b11111111#8) = .ok (.wirePayload 0xFF#8) ∧
    decode .csum (.wire 0b11111111#8) = .ok (.wireChecksum 0xFF#8) ∧
    decode .hunt (.wire 0b11111110#8) = .ok (.wireGarbage 0xFE#8) ∧
    decode .wait (.wire 0xFF#8) = .error .noWireContext := by decide +kernel
/-- R84: ASCII '1' and '0', and no other byte. -/
theorem test_decode_resp : decode .hunt (.resp 0b00110001#8) = .ok .ack ∧
    decode .hunt (.resp 0b00110000#8) = .ok .nack ∧
    decode .hunt (.resp 0b00110010#8) = .error .notAResponse := by decide +kernel
/-- R86, R87: SETTLED, DIR and SPEED are bits 3, 2 and 1..0; 0xD is settled, NEG, reduced. -/
theorem test_decode_drive :
    decode .hunt (.drive 0b0000#4 (.angles zeroAngles.toList)) = .ok (.driveReset zeroAngles) ∧
    decode .hunt (.drive 0b1000#4 (.angles zeroAngles.toList)) = .ok (.driveZero zeroAngles) ∧
    decode .hunt (.drive 0b1001#4 (.angles zeroAngles.toList)) = .ok (.driveSoftPos zeroAngles) ∧
    decode .hunt (.drive 0b1101#4 (.angles zeroAngles.toList)) = .ok (.driveSoftNeg zeroAngles) ∧
    decode .hunt (.drive 0b0010#4 (.angles zeroAngles.toList)) = .ok (.driveFullPos zeroAngles) ∧
    decode .hunt (.drive 0b0110#4 (.angles zeroAngles.toList)) = .ok (.driveFullNeg zeroAngles) ∧
    decode .hunt (.drive 0b1111#4 (.angles zeroAngles.toList)) = .error .unusedDriveCode := by
  decide +kernel
/-- 60_exceptions R220: the codes 0 to 6; 7 is reserved. -/
theorem test_decode_cause :
    decode .hunt (.cause 0b0000#4 (.angles zeroAngles.toList)) = .ok (.causeNone zeroAngles) ∧
    decode .hunt (.cause 0b0001#4 .empty) = .ok .causeProtocolError ∧
    decode .hunt (.cause 0b0010#4 .empty) = .ok .causeInvalidArgument ∧
    decode .hunt (.cause 0b0011#4 .empty) = .ok .causeStreamClosed ∧
    decode .hunt (.cause 0b0100#4 .empty) = .ok .causeCancelled ∧
    decode .hunt (.cause 0b0101#4 .empty) = .ok .causeSettleTimeout ∧
    decode .hunt (.cause 0b0110#4 .empty) = .ok .causeRxOverrun ∧
    decode .hunt (.cause 0b0111#4 .empty) = .error .reservedCause := by decide +kernel
/-- R81, S1: the frame of 01×21 carries the checksum 0x15. -/
theorem test_decode_frame :
    decode .hunt (.frame ((Vector.replicate 23 0x01#8).set 0 0xFF#8 |>.set 22 0x15#8))
      = .ok (.frame (Vector.replicate 21 0x01#8) 0x15#8) := by decide +kernel
/-- R81: a frame starts with SYNC. -/
theorem test_decode_no_sync :
    decode .hunt (.frame (Vector.replicate 23 0x01#8)) = .error .noSync := by decide +kernel
/-- R90: the encoder writes IMM8 above OP. -/
theorem test_encode_rxByte : encode (.rxByte 0x7F#8) = some (.op 0x7F1#12 .empty) := by
  decide +kernel

/-- Table words: RX_BYTE 0xFF of 16 bits, a frame of 184 bits whose first byte is 0xFF, and a byte
with no other reading. -/
theorem test_table_words : decodeTableWord 16 0xFF1 = some (.rxByte 0xFF#8) ∧
    decodeTableWord 184 0xFF = some (.frame (Vector.replicate 21 0x00#8) 0x00#8) ∧
    decodeTableWord 8 0xFF = some .wireSync ∧ decodeTableWord 8 0x12 = some (.wireGarbage 0x12#8) ∧
    decodeTableWord 8 0x31 = some .ack ∧ decodeTableWord 8 0x05 = some .causeSettleTimeout ∧
    decodeTableWord 8 0x0D = some (.driveSoftNeg zeroAngles) := by decide +kernel

/-- The placed word is run by the very next step. -/
theorem test_fetch_word :
    after (step (State.reset.withFetchWord 16 0xFF1)) (·.rxFifo) = some [0xFF#8] ∧
    after (step (State.reset.withFetchWord 8 0xFF)) (·.seqState) = some .payload ∧
    after (step (State.reset.withFetchWord 184 0xFF)) (·.rxFifo.length) = some 23 := by
  decide +kernel

/-! ## Well-formedness -/

theorem test_wellFormed_angles :
    wellFormed (.reset (oneAngle 17 .nan)) = false ∧ wellFormed (.tick (oneAngle 0 (.inf true))) = false ∧
    wellFormed (.driveZero (oneAngle 3 .nan)) = false ∧
    wellFormed (.driveSoftPos (oneAngle 3 .nan)) = false ∧
    wellFormed (.driveSoftNeg (oneAngle 3 .nan)) = false ∧
    wellFormed (.driveFullPos (oneAngle 3 .nan)) = false ∧
    wellFormed (.driveFullNeg (oneAngle 3 .nan)) = false ∧
    wellFormed (.driveReset (oneAngle 3 .nan)) = false ∧
    wellFormed (.causeNone (oneAngle 3 (.inf false))) = false ∧
    wellFormed (.reset zeroAngles) = true := by decide +kernel
theorem test_wellFormed_garbage : wellFormed (.wireGarbage 0xFF#8) = false := by decide +kernel
theorem test_wellFormed_sentinel :
    wellFormed (.frame (payload 0x00#8 0x01#8) 0x14#8) = false := by decide +kernel
theorem test_wellFormed_checksum :
    wellFormed (.frame (payload 0x01#8 0x01#8) 0x14#8) = false ∧
    wellFormed (.frame (payload 0x01#8 0x01#8) 0x15#8) = true := by decide +kernel

/-! ## Host operations -/

/-- R250: `reset 0`, then `rd 00`, returns 0x0020. -/
theorem test_reset : after (exec (.readReg 0x00#8) (resetTo zeroAngles (at_ .fault [0x01#8]))) (·.result)
    = some (.nat 0x0020) := by decide +kernel
/-- R250, T11: a non-finite angle is refused by RESET and TICK. -/
theorem test_not_finite :
    refusal (exec (.reset (oneAngle 4 (.inf true))) launch64) = some .nonFiniteAngle ∧
    refusal (exec (.tick (oneAngle 0 .nan)) launch64) = some .nonFiniteAngle := by decide +kernel
/-- C1. -/
theorem test_rxByte : after (exec (.rxByte 0xFF#8) State.reset) (·.rxFifo) = some [0xFF#8] := by
  decide +kernel
/-- C14, with RX_FIFO_DEPTH 1. -/
theorem test_rxByte_full :
    after (exec (.rxByte 0x55#8)
      { at_ .hunt [0x01#8] with cfg := { testInstance with rxFifoDepth := 1 } })
      (fun s => (s.rxFifo, s.rxOverrun, s.cause, s.logOut))
      = some ([0x01#8], true, .rxOverrun, [.rxOverrun]) := by decide +kernel
/-- C15: after RX_EOS an RX_BYTE is refused. -/
theorem test_rxEos : after (exec .rxEos State.reset) (fun s => refusal (exec (.rxByte 0x01#8) s))
    = some (some .rxAfterEos) := by decide +kernel
/-- R187: CANCEL in WAIT enables SEQ_CANCEL. -/
theorem test_cancel : after (exec .cancel (waiting false 7)) enabledStep = some (some .cancel) := by
  decide +kernel
/-- T1. -/
theorem test_tick : after (exec (.tick zeroAngles) State.reset)
    (fun s => (s.driveOut.toList.map driveBits, s.moving, settledVec s.settled))
      = some (List.replicate 18 0x8#4, false, 0x3FFFF) := by decide +kernel
/-- T5: joint 0 settles while joint 17 still holds its old value, so a stop transition occurs though
MOVING is 1 again at the end. -/
theorem test_tick_transient_stop :
    after (exec (.tick (oneAngle 17 (num 1 2))) (tickTo (oneAngle 0 (num 1 2)) State.reset))
      (fun s => (s.result == .tick s.driveOut true, s.moving, settledVec s.settled))
      = some (true, true, 0x1FFFF) := by decide +kernel
/-- H3: the last TIME_TICK of a wait. -/
theorem test_timeTick : after (exec .timeTick (waiting true 1))
    (fun s => (s.txOut, s.logOut, s.seqState, s.timer, s.awaiting))
      = some ([0x30#8], [.settleTimeout], .hunt, 0, true) := by decide +kernel
/-- H5: with CANCEL latched TIME_TICK does not count. -/
theorem test_timeTick_cancelled :
    after (exec .timeTick { waiting true 1 with cancelLatch := true }) (fun s => (s.timer, s.txOut))
      = some (1, []) := by decide +kernel
/-- H15: reserved numbers read 0. -/
theorem test_readReg_reserved : after (exec (.readReg 0x22#8) State.reset) (·.result)
    = some (.nat 0) := by decide +kernel
/-- H16: TIMER at its number. -/
theorem test_readReg_timer : after (exec (.readReg 0x03#8) (waiting true 5000)) (·.result)
    = some (.nat 0x1388) := by decide +kernel
/-- H18, H19: the snapshot of the targets of a frame 01×21, and target 9 by number. -/
theorem test_snapshot :
    after (exec .snapshot (publishTargets { State.reset with frame := payload 0x01#8 0x01#8 })) (fun s =>
      match s.result with
      | .snapshot v => [v[0], v[8], v[9], v[10], v[15]]
      | _ => [])
      = some [piTimes 1 256, piTimes 1 256, piTimes 509 256, piTimes 253 256, piTimes 509 256] := by
  decide +kernel
/-- C16: `enc 01×21` returns FF 01×21 15. -/
theorem test_encode : after (exec (.encode (payload 0x01#8 0x01#8)) State.reset) (fun s =>
    match s.result with
    | .encoded f => f.toList
    | _ => []) = some (0xFF#8 :: List.replicate 21 0x01#8 ++ [0x15#8]) := by decide +kernel
/-- C20: the reserved bytes are checked too. -/
theorem test_encode_sentinel :
    after (exec (.encode ((payload 0x01#8 0x01#8).set 20 0xFF#8)) State.reset) (·.result)
      = some (.invalidArgument 20) := by decide +kernel
/-- R91: the RESERVED rows are refused. -/
theorem test_reserved : refusal (exec (.reserved9 0x00#8) State.reset) = some .reservedOp ∧
    refusal (exec (.reservedAB 0x00#8 0#1) State.reset) = some .reservedOp ∧
    refusal (exec (.reservedCF 0x00#8 0#2) State.reset) = some .reservedOp := by decide +kernel

/-! ## SEQ steps and wire bytes -/

/-- C2. -/
theorem test_huntDiscard :
    after (exec .seqHuntDiscard (at_ .hunt [0x12#8, 0xFF#8])) (fun s => (s.rxFifo, s.seqState))
      = some ([0xFF#8], .hunt) := by decide +kernel
/-- C3. -/
theorem test_sync : after (exec .seqSync { at_ .hunt [0xFF#8, 0x7F#8] with rxIdx := 9#5, rxSum := 3#8 })
    (fun s => (s.seqState, s.rxIdx, s.rxSum, s.rxFifo)) = some (.payload, 0#5, 0x00#8, [0x7F#8]) := by
  decide +kernel
/-- C4. -/
theorem test_payload :
    after (exec .seqPayload { at_ .payload [0x05#8] with rxIdx := 3#5, rxSum := 0xFE#8 })
      (fun s => (s.frame[3], s.rxSum, s.rxIdx, s.seqState)) = some (0x05#8, 0x03#8, 4#5, .payload) := by
  decide +kernel
/-- C5. -/
theorem test_payload_last :
    after (exec .seqPayload { at_ .payload [0x01#8] with rxIdx := 20#5 })
      (fun s => (s.rxIdx, s.seqState)) = some (21#5, .csum) := by decide +kernel
/-- C6. -/
theorem test_csum :
    after (exec .seqCsum { at_ .csum [0xF1#8] with rxSum := 0xF1#8, frame := midPayload }) (·.seqState)
      = some .publish := by decide +kernel
/-- C9: a wrong checksum over a sentinel is a ProtocolError. -/
theorem test_csum_both_wrong :
    after (exec .seqCsum { at_ .csum [0x00#8] with rxSum := 0x14#8, frame := payload 0x00#8 0x01#8 })
      (fun s => (s.txOut, s.logOut, s.seqState)) = some ([0x30#8], [.protocolError], .hunt) := by
  decide +kernel
/-- C11. -/
theorem test_eos : after (exec .seqEos { at_ .hunt [] with eosLatch := true })
    (fun s => (statusWord s).toNat) = some 0x30A7 := by decide +kernel
/-- S7: the targets of the mid-range frame. -/
theorem test_publish :
    after (exec .seqPublish { at_ .publish [] with frame := midPayload })
      (fun s => (s.target[0], s.target[9], s.target[10], s.seqState))
      = some (piTimes 127 256, piTimes 383 256, piTimes 127 256, .flush) := by decide +kernel
/-- R184. -/
theorem test_flush : after (exec .seqFlush (at_ .flush [0xFF#8, 0x7F#8, 0x7F#8]))
    (fun s => (s.rxFifo, s.seqState)) = some ([], .arm) := by decide +kernel
/-- R185. -/
theorem test_arm : after (exec .seqArm (at_ .arm [])) (fun s => (s.awaiting, s.timer, s.seqState))
    = some (true, 5000, .wait) := by decide +kernel
/-- H1. -/
theorem test_ack : after (exec .seqAck (waiting false 5000)) (fun s => (s.txOut, s.seqState, s.timer))
    = some ([0x31#8], .hunt, 5000) := by decide +kernel
/-- H8. -/
theorem test_seqCancel : after (exec .seqCancel { at_ .hunt [] with cancelLatch := true })
    (fun s => (statusWord s).toNat) = some 0x4067 := by decide +kernel
/-- R95: a SEQ step that is not enabled is refused. -/
theorem test_seq_not_enabled : refusal (exec .seqAck (waiting true 1)) = some .notEnabled := by
  decide +kernel
/-- R85: a wire byte in a state in which SEQ does not read it. -/
theorem test_wire : after (exec (.wirePayload 0xFF#8) (at_ .payload [0xFF#8])) (·.frame[0])
    = some 0xFF#8 ∧ refusal (exec (.wireChecksum 0xFF#8) (at_ .payload [0xFF#8])) = some .notEnabled := by
  decide +kernel

/-! ## Angles: S6, A2, A3 -/

/-- A3 in the reference instance: the codes of 0, 0.02, π/100, −π/100, 0.035, π/80, −π/80, −π and
3π/2. -/
theorem test_tier_codes :
    [num 0 1, num 2 100, piTimes 1 100, piTimes (-1) 100, num 35 1000, piTimes 1 80, piTimes (-1) 80,
      piTimes (-1) 1, piTimes 3 2].map (fun x =>
        let r := angleEval .exact x .zero .zero
        driveBits (driveCode r.tier r.dir))
      = [0x8#4, 0x8#4, 0x9#4, 0xD#4, 0x9#4, 0x6#4, 0x2#4, 0x6#4, 0x2#4] := by decide +kernel
/-- A2: the difference takes the short way, and exactly half a turn is not adjusted. -/
theorem test_shortest_path :
    resolve .exact (num 1 10) (num 62 10) = .val (-61 / 10) 2 [] ∧
    resolve .exact (num 62 10) (num 1 10) = .val (61 / 10) (-2) [] ∧
    resolve .exact .zero (piTimes 1 1) = piTimes (-1) 1 ∧
    resolve .exact (piTimes 3 2) .zero = piTimes (-1) 2 := by decide +kernel
/-- A1: floor modulus. -/
theorem test_mod2pi : mod2pi .exact (num (-1) 10) = .val (-1 / 10) 2 [] ∧
    mod2pi .exact (num 10 1) = .val 10 (-2) [] ∧ mod2pi .exact (piTimes (-2) 1) = .zero := by
  decide +kernel
/-- A1, last row, in binary64: −1e−17 plus a turn rounds to TURN. The operand is 10^17 in place of
its binary64 rounding, which makes no difference to the sum. -/
theorem test_mod2pi_binary64 : mod2pi .binary64 (num (-1) 100000000000000000) = turn .binary64 := by
  decide +kernel

/-- R8: `<=` at equal numbers, `>` the other way round, and both of numbers with the same other real;
IEEE 754 has no order with a NaN. -/
theorem test_comparisons : leAngle (piTimes 1 80) (tier2 .exact) = true ∧
    gtAngle (piTimes 1 80) (tier2 .exact) = false ∧ gtAngle (num 32 10) (piAngle .exact) = true ∧
    ltAngle (.val 0 0 [1]) (.val 1 0 [1]) = true ∧ leAngle (.val 1 0 [1]) (.val 0 0 [1]) = false ∧
    leAngle .nan .zero = false ∧ leAngle .zero .nan = false := by decide +kernel

/-! ## Rows that name events -/

/-- S8: a wrong checksum sends NACK and records PROTOCOL_ERROR. -/
theorem test_nack : after (exec .nack { at_ .csum [0xF2#8] with rxSum := 0xF1#8, frame := midPayload })
    (fun s => (s.txOut, s.seqState)) = some ([0x30#8], .hunt) ∧
    refusal (exec .nack State.reset) = some .notEnabled := by decide +kernel
/-- S1: the frame 01×21 is received as 23 bytes. -/
theorem test_frame : after (exec (.frame (payload 0x01#8 0x01#8) 0x15#8) State.reset) (·.rxFifo)
    = some (0xFF#8 :: List.replicate 21 0x01#8 ++ [0x15#8]) := by decide +kernel
/-- S5: the TICK that drives joint 0 with 0x6 is no TICK that drives with 0x2. -/
theorem test_drive :
    codes (exec (.driveFullNeg (oneAngle 0 (num 1 10))) { State.reset with zero := oneAngle 0 (num 62 10) })
      = some (0x6#4 :: List.replicate 17 0x8#4) ∧
    refusal (exec (.driveFullPos (oneAngle 0 (num 1 10)))
      { State.reset with zero := oneAngle 0 (num 62 10) }) = some .notEnabled := by decide +kernel

/-! ## Witnesses: states and operands that meet the obligations' hypotheses, at boundary values -/

/-- DecodeEncodeRoundTrip. -/
theorem test_witness_round_trip : wellFormed (.tick zeroAngles) = true ∧
    encode (.tick zeroAngles) = some (.op 0x004#12 (.angles zeroAngles.toList)) ∧
    encode .seqAck = none := by decide +kernel
/-- DecodedPacketIsTheEncoding. -/
theorem test_witness_decoded :
    decode .csum (.wire 0x00#8) = .ok (.wireChecksum 0x00#8) ∧ isReserved (.wireChecksum 0x00#8) = false := by
  decide +kernel
/-- IllFormedWordsAreRefused: each of the three clauses at its boundary. -/
theorem test_witness_ill_formed :
    (9 ≤ ((0x009#12 : BitVec 12).extractLsb' 0 4).toNat) ∧
    ((0x012#12 : BitVec 12).extractLsb' 4 8 ≠ 0#8 ∧ ((0x012#12 : BitVec 12).extractLsb' 0 4).toNat ≠ 1 ∧
      ((0x012#12 : BitVec 12).extractLsb' 0 4).toNat ≠ 6) ∧
    (¬ HasShape 1 (.angles []) ∧ ((0x001#12 : BitVec 12).extractLsb' 0 4).toNat = 1) ∧
    (scheduled [.packet (.op 0x009#12 .empty)]).schedule = [.packet (.op 0x009#12 .empty)] := by
  refine ⟨by decide, by decide, ⟨?_, by decide⟩, rfl⟩
  rw [HasShape, if_neg (by decide), if_neg (by decide)]
  exact fun h => by cases h
/-- StepRunsTheScheduledTurn: a packet, a named step, an unnamed turn, nothing scheduled, and stuck. -/
theorem test_witness_step :
    (State.reset.launched = true ∧ decode .hunt (.op 0x005#12 .empty) = .ok .timeTick) ∧
    (scheduled [.packet (.op 0x005#12 .empty)]).schedule = [.packet (.op 0x005#12 .empty)] ∧
    (scheduled [.seq (some .ack)]).schedule = [.seq (some .ack)] ∧
    enabledStep { scheduled [.seq none] with rxFifo := [0xFF#8] } = some .sync ∧
    (State.reset.schedule = [] ∧ enabledStep (at_ .publish []) = some .publish) ∧
    enabledStep State.reset = none := by decide +kernel
/-- OnlyResetBeforeFirstReset. -/
theorem test_witness_before_reset :
    (unlaunched (scheduled [.packet (.op 0x000#12 (.angles zeroAngles.toList))])).launched = false ∧
    isNext (step (unlaunched (scheduled [.packet (.op 0x000#12 (.angles zeroAngles.toList))]))) = true ∧
    (∀ j : Joint, isAngleOf .exact zeroAngles[j] = true) := by decide +kernel
/-- ConfigurationIsNeverWritten, OnlyResponsesOnTxOut, StepKeepsAnglesNumbers: a step that answers a
next state. -/
theorem test_witness_next_step :
    isNext (step (at_ .arm [])) = true ∧
    isNext (exec .rxEos State.reset) = true ∧ State.reset.cfg.arith = .exact ∧
    validConfig State.reset.cfg = true ∧
    (∀ j : Joint, isNumber State.reset.target[j] = true ∧ isNumber State.reset.zero[j] = true) := by
  decide +kernel
/-- ResetEstablishesStartState, BadAnglesAreRefused: a NaN, a number binary64 cannot hold, and
Angles of the instance. -/
theorem test_witness_reset : (∃ j : Joint, isNumber (oneAngle 17 .nan)[j] = false) ∧
    (∀ j : Joint, isNumber (oneAngle 17 (num 1 10))[j] = true) ∧
    (∃ j : Joint, isAngleOf .binary64 (oneAngle 17 (num 1 10))[j] = false) ∧
    (∀ j : Joint, isAngleOf .binary64 (oneAngle 17 (num 1 2))[j] = true) := by
  refine ⟨⟨17, by decide +kernel⟩, by decide +kernel, ⟨17, by decide +kernel⟩, by decide +kernel⟩
/-- FirstTickAfterResetStops. -/
theorem test_witness_first_tick : State.reset.cfg.arith = .exact ∧
    (∀ j : Joint, isNumber (oneAngle 3 (num (-7) 1))[j] = true) := by decide +kernel
/-- RxByteQueuesOrOverruns, CauseRowsComplete (RX_OVERRUN): room for one byte, no room, and after
RX_EOS. -/
theorem test_witness_rxByte :
    ((at_ .hunt (List.replicate 255 0x01#8)).eosLatch = false ∧
      (at_ .hunt (List.replicate 255 0x01#8)).rxFifo.length
        < (at_ .hunt (List.replicate 255 0x01#8)).cfg.rxFifoDepth) ∧
    ((at_ .hunt (List.replicate 256 0x01#8)).eosLatch = false ∧
      (at_ .hunt (List.replicate 256 0x01#8)).cfg.rxFifoDepth
        ≤ (at_ .hunt (List.replicate 256 0x01#8)).rxFifo.length) ∧
    (closed State.reset).eosLatch = true := by decide +kernel
/-- HuntDiscardsUntilSync, WireBytesAreReadByState: a byte next to SYNC, SYNC, and a byte in PAYLOAD
and in CSUM. -/
theorem test_witness_hunt :
    ((at_ .hunt [0xFE#8]).seqState = .hunt ∧ (at_ .hunt [0xFE#8]).cancelLatch = false ∧
      (at_ .hunt [0xFE#8]).rxFifo = 0xFE#8 :: [] ∧ (0xFE#8 : Byte) ≠ 0xFF#8) ∧
    ((at_ .hunt [0xFF#8]).seqState = .hunt ∧ (at_ .hunt [0xFF#8]).cancelLatch = false ∧
      (at_ .hunt [0xFF#8]).rxFifo = 0xFF#8 :: []) ∧
    ((at_ .payload [0x00#8]).seqState = .payload ∧ (at_ .payload [0x00#8]).cancelLatch = false ∧
      (at_ .payload [0x00#8]).rxFifo = 0x00#8 :: []) ∧
    ((at_ .csum [0x00#8]).seqState = .csum ∧ (at_ .csum [0x00#8]).cancelLatch = false ∧
      (at_ .csum [0x00#8]).rxFifo = 0x00#8 :: []) := by decide +kernel
/-- PayloadByteIsStoredAndSummed: the first and the last payload byte. -/
theorem test_witness_payload :
    ((at_ .payload [0x05#8]).seqState = .payload ∧ (at_ .payload [0x05#8]).cancelLatch = false ∧
      (at_ .payload [0x05#8]).rxFifo = 0x05#8 :: [] ∧ (at_ .payload [0x05#8]).rxIdx.toNat ≤ 20) ∧
    ({ at_ .payload [0x05#8] with rxIdx := 20#5 }.seqState = .payload ∧
      { at_ .payload [0x05#8] with rxIdx := 20#5 }.rxIdx.toNat ≤ 20) := by decide +kernel

theorem midPayload_legal : LegalPayload midPayload := by
  unfold LegalPayload
  decide +kernel
theorem zeroPayload_illegal : ¬ LegalPayload (payload 0x00#8 0x01#8) := by
  intro h
  exact (h 0).1 (by decide +kernel)

/-- ChecksumIsJudgedFirst, CauseRowsComplete, ResponseRowsComplete: a wrong checksum, a right one
over a sentinel, and a right one over a legal payload. -/
theorem test_witness_csum :
    ((judging 0xF2#8 0xF1#8 midPayload).seqState = .csum ∧
      (judging 0xF2#8 0xF1#8 midPayload).cancelLatch = false ∧
      (judging 0xF2#8 0xF1#8 midPayload).rxFifo = 0xF2#8 :: [] ∧
      (0xF2#8 : Byte) ≠ (judging 0xF2#8 0xF1#8 midPayload).rxSum) ∧
    ((judging 0x14#8 0x14#8 (payload 0x00#8 0x01#8)).rxFifo = 0x14#8 :: [] ∧
      (0x14#8 : Byte) = (judging 0x14#8 0x14#8 (payload 0x00#8 0x01#8)).rxSum ∧
      ¬ LegalPayload (judging 0x14#8 0x14#8 (payload 0x00#8 0x01#8)).frame) ∧
    ((judging 0xF1#8 0xF1#8 midPayload).rxFifo = 0xF1#8 :: [] ∧
      (0xF1#8 : Byte) = (judging 0xF1#8 0xF1#8 midPayload).rxSum ∧
      LegalPayload (judging 0xF1#8 0xF1#8 midPayload).frame) :=
  ⟨by decide +kernel, ⟨rfl, rfl, zeroPayload_illegal⟩, ⟨rfl, rfl, midPayload_legal⟩⟩
/-- EndOfStreamAndCancelTerminate, CauseRowsComplete: the end of the stream in CSUM, and a
cancellation in WAIT. -/
theorem test_witness_terminate :
    ((closed (at_ .csum [])).seqState = .csum ∧ (closed (at_ .csum [])).cancelLatch = false ∧
      (closed (at_ .csum [])).eosLatch = true ∧ (closed (at_ .csum [])).rxFifo = []) ∧
    ((cancelled (waiting true 1)).seqState = .wait ∧ (cancelled (waiting true 1)).cancelLatch = true) := by
  decide +kernel
/-- EncodeBuildsTheFrame, ChecksumIsTheSumModulo256: a legal payload, an illegal one, and two that
differ in one byte. -/
theorem test_witness_payloads : LegalPayload midPayload ∧ ¬ LegalPayload (payload 0x00#8 0x01#8) ∧
    (payload 0x01#8 0x01#8)[(0 : ServoIndex)] ≠ (payload 0xFE#8 0x01#8)[(0 : ServoIndex)] ∧
    ∀ k : ServoIndex, k ≠ 0 → (payload 0x01#8 0x01#8)[k] = (payload 0xFE#8 0x01#8)[k] :=
  ⟨midPayload_legal, zeroPayload_illegal, by decide +kernel, by decide +kernel⟩
/-- EncodedFrameIsAccepted, CorruptedFrameIsNacked, FrameIsTwentyThreeRxBytes: the smallest depth
that holds a frame, a changed payload byte and a changed checksum (S2, S8). -/
theorem test_witness_frame :
    (LegalPayload midPayload ∧ narrow.launched = true ∧ narrow.seqState = .hunt ∧
      narrow.rxFifo = [] ∧ narrow.cancelLatch = false ∧ narrow.eosLatch = false ∧
      23 ≤ narrow.cfg.rxFifoDepth) ∧
    (midPayload[(0 : ServoIndex)] ≠ (midPayload.set 0 0xFF#8)[(0 : ServoIndex)] ∧
      ∀ k : ServoIndex, k ≠ 0 → midPayload[k] = (midPayload.set 0 0xFF#8)[k]) ∧
    (0xF2#8 : Byte) ≠ checksum midPayload ∧
    narrow.rxFifo.length + 23 ≤ narrow.cfg.rxFifoDepth :=
  ⟨⟨midPayload_legal, by decide +kernel⟩, by decide +kernel, by decide +kernel, by decide +kernel⟩
/-- ExactOperationsAreTheReals, Mod2piReducesToOneTurn, ResolvedDifferenceByCase,
TierDirectionAndSettled: numbers, another real among them, and reduced angles on both sides of half a
turn. -/
theorem test_witness_angles : isNumber (.val (-7) 3 [1, -2]) = true ∧
    (isNumber (piTimes 3 2) = true ∧ isNumber .zero = true ∧
      0 ≤ angleReal (piTimes 3 2) ∧ angleReal (piTimes 3 2) < 2 * Real.pi ∧
      0 ≤ angleReal .zero ∧ angleReal .zero < 2 * Real.pi) ∧
    Real.pi < angleReal (piTimes 3 2) - angleReal .zero ∧
    angleReal .zero - angleReal (piTimes 3 2) < -Real.pi := by
  have := Real.pi_pos
  refine ⟨rfl, ⟨rfl, rfl, ?_, ?_, ?_, ?_⟩, ?_, ?_⟩ <;> norm_num [angleReal, piTimes, Angle.zero, otherSum] <;> linarith
/-- TierDirectionAndSettled, TickEmitsTheCodeOfTheTier: differences in each tier and of each sign,
each boundary among them (A3). -/
theorem test_witness_tiers :
    (angleEval .exact .zero .zero .zero).diff = .zero ∧
    (angleEval .exact (piTimes 1 100) .zero .zero).diff = piTimes 1 100 ∧
    (angleEval .exact (piTimes (-1) 100) .zero .zero).diff = piTimes (-1) 100 ∧
    (angleEval .exact (piTimes 1 80) .zero .zero).diff = piTimes 1 80 ∧
    (angleEval .exact (piTimes (-1) 80) .zero .zero).diff = piTimes (-1) 80 := by decide +kernel
/-- TierDirectionAndSettled, TickEmitsTheCodeOfTheTier: TARGET counts in the difference (R144: at 0,
with ZERO 0 and TARGET π/2, it is 0 − π/2), and numbers with another real meet the hypotheses. -/
theorem test_witness_difference :
    (angleEval .exact .zero .zero (piTimes 1 2)).diff = piTimes (-1) 2 ∧
    (isNumber (.val 0 0 [1]) = true ∧ State.reset.cfg.arith = .exact ∧
      AnglesAreNumbers { State.reset with target := oneAngle 0 (.val 1 0 [0, 1]) } ∧
      ∀ j : Joint, isNumber (oneAngle 0 (.val 0 0 [1]))[j] = true) := by
  refine ⟨by decide +kernel, rfl, rfl, ?_, by decide +kernel⟩
  unfold AnglesAreNumbers
  decide +kernel
/-- ConvertFormulaAndMirrorSymmetry: the commands 1 and 253. -/
theorem test_witness_convert : testInstance.converter = .reference ∧ testInstance.arith = .exact ∧
    isNumber (perArt testInstance.offset .shoulder) = true ∧ isMirrored testInstance .lFront = false ∧
    isMirrored testInstance .rFront = true ∧ 1 ≤ (0x01#8 : Byte).toNat ∧ (0xFD#8 : Byte).toNat ≤ 253 := by
  decide +kernel
/-- Binary64RoundsWithinHalfAnUlp: the least and the greatest exponent of the normal range, a number
below it, and the least that overflows. -/
theorem test_witness_rounding :
    ((2 : Rat) ^ (-1022 : Int) ≤ |(2 : Rat) ^ (-1022 : Int)| ∧
      |(2 : Rat) ^ (-1022 : Int)| < (2 : Rat) ^ (-1022 + 1 : Int) ∧
      |(2 : Rat) ^ (-1022 : Int)| < (2 : Rat) ^ (1024 : Int) - (2 : Rat) ^ (970 : Int)) ∧
    ((2 : Rat) ^ (1023 : Int) ≤ |2 ^ 1024 - 2 ^ 971| ∧
      |2 ^ 1024 - 2 ^ 971| < (2 : Rat) ^ (1023 + 1 : Int) ∧
      |(2 : Rat) ^ 1024 - 2 ^ 971| < (2 : Rat) ^ (1024 : Int) - (2 : Rat) ^ (970 : Int)) ∧
    |(2 : Rat) ^ (-1075 : Int)| < (2 : Rat) ^ (-1022 : Int) ∧
    (2 : Rat) ^ (1024 : Int) - (2 : Rat) ^ (970 : Int) ≤ |(2 : Rat) ^ (1024 : Int) - (2 : Rat) ^ (970 : Int)| := by decide +kernel
/-- Binary64RoundsWithinHalfAnUlp: ties go to the even multiple of the unit, above 1, in the
subnormal range and at the overflow threshold. -/
theorem test_round_ties :
    rnd .binary64 (.val (1 + 1 / 2 ^ 53) 0 []) = .val 1 0 [] ∧
    rnd .binary64 (.val (1 + 3 / 2 ^ 53) 0 []) = .val (1 + 1 / 2 ^ 51) 0 [] ∧
    rnd .binary64 (.val (3 / 2 ^ 1075) 0 []) = .val (1 / 2 ^ 1073) 0 [] ∧
    rnd .binary64 (.val (-(2 ^ 1024 - 2 ^ 970)) 0 []) = .inf true := by decide +kernel
/-- Binary64OperationsRoundOnce: a quotient that is a number. -/
theorem test_witness_quotient :
    rnd .binary64 (.val (4 * pi64 / (2 * pi64)) 0 []) = .val 2 0 [] := by decide +kernel
/-- TickUpdatesEveryJoint, StopTransitionClearsAwaiting, DriveRowsComplete. -/
theorem test_witness_tick : ∀ j : Joint, isAngleOf State.reset.cfg.arith (oneAngle 0 (num 1 2))[j] = true := by
  decide +kernel

/-- CLEAN_LAUNCH after T1: every joint settled, and still. -/
def stopped0 : State :=
  { State.reset with settled := Vector.replicate 18 true, moving := false }

/-- NoStopWithoutPriorMotion: the stop transition of T1 at joint 17. -/
theorem test_witness_stop : State.reset.moving = anyUnsettled State.reset.settled ∧
    StopAt zeroAngles State.reset 17 := by
  refine ⟨by decide +kernel, by decide, ?_, ?_⟩
  · rw [movingAfter, if_neg (by decide), decide_eq_true_eq]
    exact ⟨17, by decide +kernel⟩
  · rw [movingAfter, if_neg (by decide), decide_eq_false_iff_not]
    rintro ⟨j, hj⟩
    revert j
    decide +kernel
/-- AtMostOneStopTransition: in T1 the update of joint 17 takes MOVING from 1 to 0. -/
theorem test_witness_one_stop :
    (∀ j : Joint, isAngleOf State.reset.cfg.arith zeroAngles[j] = true) ∧
    (tickAfter zeroAngles State.reset 17).1.moving = true ∧
    (tickAfter zeroAngles State.reset (17 + 1)).1.moving = false := by decide +kernel
/-- NoStopWithoutPriorMotion, second clause (T2). -/
theorem test_witness_still : stopped0.moving = anyUnsettled stopped0.settled ∧ stopped0.moving = false ∧
    (∀ j : Joint, isAngleOf stopped0.cfg.arith zeroAngles[j] = true) ∧
    (∀ j : Joint,
      (angleEval stopped0.cfg.arith zeroAngles[j] stopped0.zero[j] stopped0.target[j]).settled = true) := by
  decide +kernel
/-- A converter given by a table: π times joint over 18, whatever the byte. -/
def tabled : Config :=
  { testInstance with
    converter := .table (Vector.ofFn fun j : Joint => Vector.replicate 256 (piTimes j.val 18)) }
/-- PublishUsesTheGivenConverter, StepKeepsAnglesNumbers: a legal configuration with a table, whose
entry SEQ_PUBLISH takes. -/
theorem test_witness_converter :
    (at_ .publish []).seqState = .publish ∧ validConfig tabled = true ∧
    after (exec .seqPublish { at_ .publish [] with cfg := tabled })
      (fun t => t.target[(17 : Joint)]) = some (piTimes 17 18) := by decide +kernel
/-- PublishConvertsAllTargets, FlushArmAndAcknowledge, AckOverTimeout. -/
theorem test_witness_handshake : (at_ .publish []).seqState = .publish ∧
    (at_ .flush [0xFF#8]).seqState = .flush ∧ (at_ .arm []).seqState = .arm ∧
    ((waiting false 0).seqState = .wait ∧ (waiting false 0).cancelLatch = false ∧
      (waiting false 0).awaiting = false) := by decide +kernel
/-- TimeTickCountsTheArmedWait, ResponseRowsComplete, CauseRowsComplete (SETTLE_TIMEOUT): TIMER 2, 1,
and each way not to be an armed wait. -/
theorem test_witness_timeTick :
    ((waiting true 2).seqState = .wait ∧ (waiting true 2).cancelLatch = false ∧
      (waiting true 2).awaiting = true ∧ 2 ≤ (waiting true 2).timer) ∧
    ((waiting true 1).seqState = .wait ∧ (waiting true 1).cancelLatch = false ∧
      (waiting true 1).awaiting = true ∧ (waiting true 1).timer = 1) ∧
    State.reset.seqState ≠ .wait ∧ (cancelled (waiting true 1)).cancelLatch = true ∧
    (waiting false 1).awaiting = false := by
  decide +kernel
/-- WaitExpiresAtTimeoutTicks, with the least legal TIMEBASE_HZ. -/
theorem test_witness_wait : slow.seqState = .arm ∧ slow.cancelLatch = false ∧
    validConfig slow.cfg = true ∧ 0 < timeoutTicks slow.cfg ∧ 4 < timeoutTicks slow.cfg := by
  decide +kernel
/-- OneSeqStepIsEnabled: an enabled step, and one that is not. -/
theorem test_witness_enabled : StepEnabled (at_ .arm []) .arm ∧ ¬ StepEnabled State.reset .arm :=
  ⟨rfl, fun h => by cases h⟩
/-- CancellationSilencesTheLink: in PUBLISH, FLUSH and ARM, and with a step that runs. -/
theorem test_witness_cancelled :
    ((cancelled (at_ .publish [])).cancelLatch = true ∧ (cancelled (at_ .publish [])).seqState = .publish ∧
      isNext (step (cancelled (at_ .publish []))) = true) ∧
    (cancelled (at_ .flush [])).seqState = .flush ∧ (cancelled (at_ .arm [])).seqState = .arm := by
  decide +kernel
/-- EndedSequencerStaysEnded: in both states, with room for a byte and a step that runs. -/
theorem test_witness_ended :
    ((at_ .fault []).seqState = .fault ∧ (at_ .fault []).eosLatch = false ∧
      (at_ .fault []).rxFifo.length < (at_ .fault []).cfg.rxFifoDepth ∧
      ∀ j : Joint, isAngleOf (at_ .fault []).cfg.arith zeroAngles[j] = true) ∧
    (at_ .terminated []).seqState = .terminated ∧
    isNext (step { at_ .terminated [] with schedule := [.packet (.op 0x001#12 .empty)] }) = true := by
  decide +kernel
/-- ReadRegReturnsTheMap: the largest TIMER, and the reserved numbers at both ends of each range. -/
theorem test_witness_readReg : (waiting true 65535).timer < 65536 ∧
    [0x06#8, 0x0F#8, 0x22#8, 0x3F#8, 0x52#8, 0x5F#8, 0x72#8, 0x7F#8, 0x95#8, 0xFF#8].all
      (fun n => decide (after (exec (.readReg n) (waiting true 1)) (·.result) = some (.nat 0))) = true := by
  decide +kernel
/-- StepKeepsTheInvariants, SeqAgentComesToRest: a state in the middle of a frame that meets the
invariants and steps. -/
theorem test_witness_inv : Inv (at_ .payload [0x05#8]) ∧ isNext (step (at_ .payload [0x05#8])) = true ∧
    (at_ .payload [0x05#8]).launched = true := by
  refine ⟨?_, by decide +kernel, rfl⟩
  constructor
  case accepted => intro h; cases h
  all_goals decide +kernel
/-- ResetMeetsTheInvariants. -/
theorem test_witness_reset_inv : validConfig State.reset.cfg = true ∧
    ∀ j : Joint, isAngleOf State.reset.cfg.arith zeroAngles[j] = true := by decide +kernel
/-- CausesAreRecordedOnce: an instruction that records a cause. -/
theorem test_witness_cause : after (exec .seqEos { at_ .hunt [] with eosLatch := true }) (·.cause)
    = some .streamClosed := by decide +kernel
/-- ServoMapIsABijection: a legal configuration whose map is not the default, and codes on both sides
of the last legal ones. -/
theorem test_witness_servoMap :
    validConfig { testInstance with
      servoMap := Vector.ofFn fun j : Joint => ⟨17 - j.val, by omega⟩ } = true ∧
    (5#3 : BitVec 3).toNat < 6 ∧ 6 ≤ (6#3 : BitVec 3).toNat ∧ (2#2 : BitVec 2).toNat < 3 ∧
    (3#2 : BitVec 2).toNat = 3 := by decide +kernel
/-- EventRowsAddNoBehaviour. -/
theorem test_witness_event : isBlockStep .ack = false ∧ isNext (exec .ack (waiting false 1)) = true := by
  decide +kernel
/-- DriveRowsComplete: one TICK with each of the five codes. -/
theorem test_witness_drive :
    codes (exec (.tick ((((zeroAngles.set 1 (piTimes 1 100)).set 2 (piTimes (-1) 100)).set 3
      (piTimes (-1) 80)).set 4 (piTimes 1 80))) State.reset)
      = some (0x8#4 :: 0x9#4 :: 0xD#4 :: 0x2#4 :: 0x6#4 :: List.replicate 13 0x8#4) := by decide +kernel

end Sys2Proof.Tests
end

section
/-! SUPPORT. The operations of ANGLE_ARITH (00_scope R8), and the scheduled step
(00_scope R4, R5). -/

namespace Sys2Proof.Machine

/-! ## The exact operations -/

/-- The exact floor-division is the real floor of the number of turns. -/
theorem floorTurn_exact_real {x : Angle} (hx : isNumber x = true) :
    floorTurn .exact x = some ⌊angleReal x / (2 * Real.pi)⌋ := by
  obtain ⟨lo, hi, n, hn, hm⟩ := (mod2pi_exact_real hx).2
  have hpi := Real.two_pi_pos
  rw [hn, eq_comm, Option.some_inj, Int.floor_eq_iff, le_div_iff₀ hpi, div_lt_iff₀ hpi]
  constructor <;> linarith

/-- Settles O21: each operation by its law in terms of the real numbers. -/
theorem exactOperationsAreTheReals : Obligations.ExactOperationsAreTheReals := by
  refine ⟨fun x y hx hy => ⟨add_exact_real hx hy, sub_exact_real hx hy,
    fun n => mulInt_exact_real n hx, ⟨?_, angleReal_abs x⟩, floorTurn_exact_real hx,
    ltAngle_iff hx hy, leAngle_iff hx hy, gtAngle_iff hx hy⟩,
    piAngle_exact_real, turn_exact_real, tier1_exact_real, tier2_exact_real, stepAngle_exact_real⟩
  rw [isNumber_abs, hx]

/-! ## The step -/

/-- With nothing scheduled the SEQ agent moves. -/
theorem step_of_nil {s : State} (h : s.schedule = []) : step s = seqMove s := by
  rw [step, nextStep, h]

/-- The first scheduled turn is taken in the state less that turn. -/
theorem step_of_cons {s : State} {t : Turn} {rest : List Turn} (h : s.schedule = t :: rest) :
    step s = takeTurn t { s with schedule := rest } := by
  rw [step, nextStep, h]

theorem runLaunched_of_launched {s : State} (h : s.launched = true) (i : Instr) :
    runLaunched i s = exec i s := by
  simp [runLaunched, h]

theorem seqMove_of_enabled {s : State} {k : SeqStep} (h : s.launched = true)
    (hk : enabledStep s = some k) : seqMove s = exec (seqInstr k) s := by
  simp [seqMove, h, hk]

theorem seqMove_stuck {s : State} (h : s.launched = true) (hk : enabledStep s = none) :
    seqMove s = .fault .stuck := by
  simp [seqMove, h, hk]

theorem takeTurn_packet {s : State} {p : Packet} {i : Instr} (h : s.launched = true)
    (hd : decode s.seqState p = .ok i) : takeTurn (.packet p) s = exec i s := by
  simp only [takeTurn, hd, runLaunched_of_launched h]

theorem takeTurn_named {s : State} (h : s.launched = true) (k : SeqStep) :
    takeTurn (.seq (some k)) s = exec (seqInstr k) s := runLaunched_of_launched h (seqInstr k)

theorem takeTurn_unnamed (s : State) : takeTurn (.seq none) s = seqMove s := rfl

/-- Settles O5, by the kind of the turn; `decode` and `enabledStep` do not look at the schedule, so
what they answer for `s` they answer for `s` less its turn. -/
theorem stepRunsTheScheduledTurn : Obligations.StepRunsTheScheduledTurn := by
  intro s rest hl
  have hl' : { s with schedule := rest }.launched = true := hl
  refine ⟨fun p i hs hd => ?_, fun k hs => ?_, fun k hs hk => ?_, fun k hs hk => ?_, fun hs hk => ?_⟩
  · rw [step_of_cons hs, takeTurn_packet hl' hd]
  · rw [step_of_cons hs, takeTurn_named hl']
  · rw [step_of_cons hs, takeTurn_unnamed, seqMove_of_enabled hl' hk]
  · rw [step_of_nil hs, seqMove_of_enabled hl hk]
  · rcases hs with hs | hs
    · rw [step_of_cons hs, takeTurn_unnamed, seqMove_stuck hl' hk]
    · rw [step_of_nil hs, seqMove_stuck hl hk]

/-! ## The binary64 operations: one rounding each -/

@[simp] theorem valReal_rat (a : Rat) : valReal a 0 [] = (a : ℝ) := by simp [valReal]

/-- On rational numbers the angle order is the order of the rationals. -/
theorem ltAngle_rat_iff (a b : Rat) : ltAngle (.val a 0 []) (.val b 0 []) = true ↔ a < b := by
  rw [ltAngle_val_iff, valReal_rat, valReal_rat, Rat.cast_lt]

theorem leAngle_rat_iff (a b : Rat) : leAngle (.val a 0 []) (.val b 0 []) = true ↔ a ≤ b := by
  rw [leAngle_iff rfl rfl, angleReal_val, angleReal_val, valReal_rat, valReal_rat, Rat.cast_le]

theorem absAngle_rat (a : Rat) : absAngle (.val a 0 []) = .val |a| 0 [] := by
  rw [absAngle_val]
  split
  case isTrue h =>
    rw [isNegVal_iff, valReal_rat, Rat.cast_lt_zero] at h
    rw [abs_of_neg h, neg_zero, List.map_nil]
  case isFalse h =>
    rw [isNegVal_iff, valReal_rat, Rat.cast_lt_zero, not_lt] at h
    rw [abs_of_nonneg h]

/-- Settles O27: `+`, `−` and `×` by their exact results, the rest by the order of the rationals. -/
theorem binary64OperationsRoundOnce : Obligations.Binary64OperationsRoundOnce := by
  intro a b
  refine ⟨?_, ?_, fun n => ?_, absAngle_rat a, fun q hq => ?_, ltAngle_rat_iff a b,
    leAngle_rat_iff a b, ltAngle_rat_iff b a⟩
  · simp [add, rawAdd, addOther]
  · simp [sub, rawAdd, negAngle, addOther, sub_eq_add_neg]
  · simp [mulInt, rawMulInt]
  · simp only [floorTurn, hq]
    rfl

end Sys2Proof.Machine
end

section
/-! SUPPORT. The rounding to binary64 (00_scope R8): to the nearest number of 53 bits, ties
to even, with the least exponent −1074 and overflow to an infinity. -/

namespace Sys2Proof.Machine

/-! ## Rounding to binary64 -/

theorem pow2_eq_zpow (i : Int) : pow2 i = (2 : Rat) ^ i := by
  unfold pow2
  split
  case isTrue h =>
    rw [Nat.cast_pow, ← zpow_natCast, Int.toNat_of_nonneg h, Nat.cast_ofNat]
  case isFalse h =>
    rw [Nat.cast_pow, ← zpow_natCast, Int.toNat_of_nonneg (by omega), Nat.cast_ofNat, zpow_neg,
      one_div, inv_inv]

theorem zpow_log2_le {n : Nat} (h : n ≠ 0) : (2 : Rat) ^ (n.log2 : Int) ≤ n := by
  rw [zpow_natCast]
  exact_mod_cast Nat.log2_self_le h

theorem lt_zpow_log2 (n : Nat) : (n : Rat) < (2 : Rat) ^ ((n.log2 : Int) + 1) := by
  exact_mod_cast (Nat.lt_log2_self : n < 2 ^ (n.log2 + 1))

/-- `ilog2` is the binary exponent of a positive rational. -/
theorem ilog2_spec {a : Rat} (ha : 0 < a) :
    (2 : Rat) ^ ilog2 a ≤ a ∧ a < (2 : Rat) ^ (ilog2 a + 1) := by
  have hnum : a.num.natAbs ≠ 0 := by simpa using ha.ne'
  have hden : (0 : Rat) < a.den := by exact_mod_cast a.den_pos
  have hdiv : (a.num.natAbs : Rat) = a * a.den := by
    rw [Nat.cast_natAbs, abs_of_pos (Rat.num_pos.mpr ha), Rat.mul_den_eq_num]
  have two : (2 : Rat) ≠ 0 := two_ne_zero
  have nlo := zpow_log2_le hnum
  have nhi := lt_zpow_log2 a.num.natAbs
  have dlo := zpow_log2_le a.den_ne_zero
  have dhi := lt_zpow_log2 a.den
  rw [hdiv] at nlo nhi
  unfold ilog2
  generalize (a.num.natAbs.log2 : Int) = n at nlo nhi ⊢
  generalize (a.den.log2 : Int) = d at dlo dhi ⊢
  have hi : a < (2 : Rat) ^ (n - d + 1) := by
    rw [show n - d + 1 = n + 1 - d by ring, zpow_sub₀ two, lt_div_iff₀ (by positivity)]
    exact (mul_le_mul_of_nonneg_left dlo ha.le).trans_lt nhi
  have lo : (2 : Rat) ^ (n - d - 1) ≤ a := by
    rw [show n - d - 1 = n - (d + 1) by ring, zpow_sub₀ two, div_le_iff₀ (by positivity)]
    exact nlo.trans (mul_le_mul_of_nonneg_left dhi.le ha.le)
  simp only [pow2_eq_zpow]
  split
  case isTrue h => exact ⟨lo, by rwa [sub_add_cancel]⟩
  case isFalse h => exact ⟨not_lt.mp h, hi⟩

/-- Powers of two are ordered as their exponents. -/
theorem lt_of_two_zpow_lt {i j : Int} (h : (2 : Rat) ^ i < (2 : Rat) ^ j) : i < j :=
  (zpow_lt_zpow_iff_right₀ one_lt_two).mp h

theorem ilog2_lt_of_lt {a : Rat} {e : Int} (ha : 0 < a) (h : a < (2 : Rat) ^ e) : ilog2 a < e :=
  lt_of_two_zpow_lt ((ilog2_spec ha).1.trans_lt h)

theorem le_ilog2_of_le {a : Rat} {e : Int} (ha : 0 < a) (h : (2 : Rat) ^ e ≤ a) : e ≤ ilog2 a :=
  Int.lt_add_one_iff.mp (lt_of_two_zpow_lt (h.trans_lt (ilog2_spec ha).2))

/-- `m` is an integer nearest to `a`, and the even one where two are nearest. -/
def IsNearestEven (a : Rat) (m : Int) : Prop :=
  |(m : Rat) - a| ≤ 1 / 2 ∧ (|(m : Rat) - a| = 1 / 2 → Even m)

theorem roundHalfEven_isNearestEven (a : Rat) : IsNearestEven a (roundHalfEven a) := by
  have lo : (a.floor : Rat) ≤ a := Rat.floor_le a
  have hi : a < a.floor + 1 := by exact_mod_cast Rat.lt_floor_add_one a
  have below : |(a.floor : Rat) - a| = a - a.floor := by rw [abs_sub_comm, abs_of_nonneg (by linarith)]
  have above : |((a.floor + 1 : Int) : Rat) - a| = a.floor + 1 - a := by
    rw [Int.cast_add, Int.cast_one, abs_of_nonneg (by linarith)]
  simp only [roundHalfEven, IsNearestEven]
  split_ifs with h1 h2 h3
  · rw [below]; exact ⟨h1.le, fun h => absurd h h1.ne⟩
  · rw [above]; exact ⟨by linarith, fun h => by linarith⟩
  · rw [below]; exact ⟨not_lt.mp h2, fun _ => Int.even_iff.mpr h3⟩
  · rw [above]; exact ⟨by linarith, fun _ => Int.even_iff.mpr (by omega)⟩

/-- Rounding reaches `m` from `m − 1/2` on, the tie itself only for an even `m`: of two neighbours
one is odd. -/
theorem IsNearestEven.le_of_tie {a : Rat} {m n : Int} (hn : IsNearestEven a n)
    (lo : (m : Rat) - 1 / 2 ≤ a) (tie : (m : Rat) - 1 / 2 = a → Even m) : m ≤ n := by
  by_contra hlt
  have gap : (n : Rat) + 1 ≤ m := by exact_mod_cast not_le.mp hlt
  have near := abs_le.mp hn.1
  have next : m = n + 1 := by exact_mod_cast (by linarith : (m : Rat) = n + 1)
  have evenN := hn.2 (by rw [abs_of_nonpos (by linarith)]; linarith)
  have evenM := tie (by linarith)
  rw [next, Int.even_add_one] at evenM
  exact evenM evenN

theorem IsNearestEven.le {a : Rat} {m n : Int} (hm : IsNearestEven a m) (hn : IsNearestEven a n) :
    m ≤ n :=
  hn.le_of_tie (by linarith [(abs_le.mp hm.1).2]) fun h => hm.2 (by rw [← h]; norm_num)

theorem roundHalfEven_eq {a : Rat} {m : Int} (h : IsNearestEven a m) : roundHalfEven a = m :=
  le_antisymm ((roundHalfEven_isNearestEven a).le h) (h.le (roundHalfEven_isNearestEven a))

theorem roundHalfEven_intCast (m : Int) : roundHalfEven (m : Rat) = m :=
  roundHalfEven_eq ⟨by norm_num, by norm_num⟩

theorem roundHalfEven_neg (a : Rat) : roundHalfEven (-a) = -roundHalfEven a := by
  obtain ⟨near, even⟩ := roundHalfEven_isNearestEven a
  have dist : |((-roundHalfEven a : Int) : Rat) - -a| = |(roundHalfEven a : Rat) - a| := by
    rw [Int.cast_neg, ← neg_sub', abs_neg]
  exact roundHalfEven_eq ⟨dist ▸ near, fun h => (even (dist ▸ h)).neg⟩

theorem le_roundHalfEven {a : Rat} {m : Int} (h : (m : Rat) ≤ a) : m ≤ roundHalfEven a :=
  (roundHalfEven_isNearestEven a).le_of_tie (by linarith) fun tie => by linarith

theorem roundHalfEven_le {a : Rat} {m : Int} (h : a ≤ m) : roundHalfEven a ≤ m := by
  have := le_roundHalfEven (a := -a) (m := -m) (by push_cast; linarith)
  rw [roundHalfEven_neg] at this
  omega

theorem roundHalfEven_abs (a : Rat) : roundHalfEven |a| = |roundHalfEven a| := by
  rcases le_total 0 a with h | h
  · rw [abs_of_nonneg h, abs_of_nonneg (le_roundHalfEven (by exact_mod_cast h))]
  · rw [abs_of_nonpos h, roundHalfEven_neg, abs_of_nonpos (roundHalfEven_le (by exact_mod_cast h))]

/-- The exponent of the unit in the last place of the binary64 numbers about `q`. -/
def ulpExponent (q : Rat) : Int := max (ilog2 |q|) (-1022) - 52

/-- The multiple of the unit in the last place that `q` is rounded to. -/
def significand (q : Rat) : Int := roundHalfEven (q / (2 : Rat) ^ ulpExponent q)

theorem abs_significand (q : Rat) :
    |significand q| = roundHalfEven (|q| / (2 : Rat) ^ ulpExponent q) := by
  rw [significand, ← roundHalfEven_abs, abs_div, abs_zpow, abs_two]

/-- The model rounds the size and sets the sign afterwards; that is the signed multiple. -/
theorem signed_significand (q : Rat) :
    (if q < 0 then -((|significand q| : Int) : Rat) else (|significand q| : Int)) = significand q := by
  split
  case isTrue h =>
    rw [significand, abs_of_nonpos (roundHalfEven_le ?_), Int.cast_neg, neg_neg]
    exact_mod_cast div_nonpos_of_nonpos_of_nonneg h.le (by positivity)
  case isFalse h =>
    rw [significand, abs_of_nonneg (le_roundHalfEven ?_)]
    exact_mod_cast div_nonneg (not_lt.mp h) (by positivity)

/-- Rounding below the overflow threshold. -/
theorem roundBinary64_of_lt {q : Rat}
    (h : |significand q * (2 : Rat) ^ ulpExponent q| < (2 : Rat) ^ (1024 : Int)) :
    roundBinary64 q = .val (significand q * (2 : Rat) ^ ulpExponent q) 0 [] := by
  rw [abs_mul, ← Int.cast_abs, abs_zpow, abs_two] at h
  by_cases hq : q = 0
  · subst hq
    have : significand 0 = 0 := by rw [significand, zero_div]; exact roundHalfEven_intCast 0
    rw [this, Int.cast_zero, zero_mul]
    rfl
  · simp only [roundBinary64, if_neg hq, pow2_eq_zpow]
    rw [← ulpExponent, ← abs_significand, if_neg (not_le.mpr h), ← neg_mul, ← ite_mul,
      signed_significand]

/-- Rounding from the overflow threshold on. -/
theorem roundBinary64_of_le {q : Rat} (hq : q ≠ 0)
    (h : (2 : Rat) ^ (1024 : Int) ≤ (|significand q| : Int) * (2 : Rat) ^ ulpExponent q) :
    roundBinary64 q = .inf (decide (q < 0)) := by
  simp only [roundBinary64, if_neg hq, pow2_eq_zpow]
  rw [← ulpExponent, ← abs_significand, if_pos h]

theorem neg_1074_le_ulpExponent (q : Rat) : -1074 ≤ ulpExponent q := by
  unfold ulpExponent; omega

theorem ulpExponent_le {q : Rat} {u : Int} (hq : q ≠ 0) (hu : -1074 ≤ u)
    (h : |q| < (2 : Rat) ^ (u + 53)) : ulpExponent q ≤ u := by
  have := ilog2_lt_of_lt (abs_pos.mpr hq) h
  unfold ulpExponent; omega

theorem le_ulpExponent {q : Rat} {u : Int} (hq : q ≠ 0) (h : (2 : Rat) ^ (u + 52) ≤ |q|) :
    u ≤ ulpExponent q := by
  have := le_ilog2_of_le (abs_pos.mpr hq) h
  unfold ulpExponent; omega

/-- In units of its last place `q` has at most 53 bits. -/
theorem abs_lt_zpow_ulpExponent {q : Rat} (hq : q ≠ 0) :
    |q| < (2 : Rat) ^ (ulpExponent q + 53) := by
  refine (ilog2_spec (abs_pos.mpr hq)).2.trans_le (zpow_le_zpow_right₀ one_le_two ?_)
  unfold ulpExponent; omega

/-- Above the least exponent `q` has all 53 bits. -/
theorem zpow_ulpExponent_le_abs {q : Rat} (hq : q ≠ 0) (hu : -1074 < ulpExponent q) :
    (2 : Rat) ^ (ulpExponent q + 52) ≤ |q| := by
  refine le_trans (zpow_le_zpow_right₀ one_le_two ?_) (ilog2_spec (abs_pos.mpr hq)).1
  unfold ulpExponent at hu ⊢; omega

theorem abs_significand_le (q : Rat) : |significand q| ≤ 2 ^ 53 := by
  rw [abs_significand]
  apply roundHalfEven_le
  by_cases hq : q = 0
  · rw [hq, abs_zero, zero_div]; positivity
  · have h := abs_lt_zpow_ulpExponent hq
    rw [zpow_add₀ two_ne_zero, mul_comm] at h
    rw [div_le_iff₀ (by positivity)]
    exact_mod_cast h.le

/-- The rounded number is within half a unit in the last place, ties to even. -/
theorem significand_spec (q : Rat) :
    |significand q * (2 : Rat) ^ ulpExponent q - q| ≤ (2 : Rat) ^ (ulpExponent q - 1) ∧
    (|significand q * (2 : Rat) ^ ulpExponent q - q| = (2 : Rat) ^ (ulpExponent q - 1) →
      Even (significand q)) := by
  have unit : (0 : Rat) < 2 ^ ulpExponent q := by positivity
  have half : (2 : Rat) ^ (ulpExponent q - 1) = 1 / 2 * 2 ^ ulpExponent q := by
    rw [zpow_sub_one₀ two_ne_zero]; ring
  have dist : |significand q * (2 : Rat) ^ ulpExponent q - q|
      = |significand q - q / (2 : Rat) ^ ulpExponent q| * 2 ^ ulpExponent q := by
    rw [← abs_of_pos unit, ← abs_mul, abs_of_pos unit, sub_mul, div_mul_cancel₀ _ unit.ne']
  obtain ⟨near, even⟩ := roundHalfEven_isNearestEven (q / (2 : Rat) ^ ulpExponent q)
  rw [dist, half]
  exact ⟨mul_le_mul_of_nonneg_right near unit.le, fun h => even (mul_right_cancel₀ unit.ne' h)⟩

/-- A multiple of its own unit in the last place is not changed. -/
theorem roundBinary64_of_multiple {q : Rat} {k : Int} (hk : q = k * (2 : Rat) ^ ulpExponent q)
    (h : |q| < (2 : Rat) ^ (1024 : Int)) : roundBinary64 q = .val q 0 [] := by
  have hs : significand q = k := by
    have : q / (2 : Rat) ^ ulpExponent q = k := (div_eq_iff (by positivity)).mpr hk
    rw [significand, this, roundHalfEven_intCast]
  have hq : significand q * (2 : Rat) ^ ulpExponent q = q := by rw [hs, ← hk]
  rw [← hq] at h
  rw [roundBinary64_of_lt h, hq]

/-- A number of at most 53 bits, in range, is not changed. -/
theorem roundBinary64_of_abs_lt {n u : Int} (hu : -1074 ≤ u) (hn : |n| < 2 ^ 53)
    (h : |n * (2 : Rat) ^ u| < (2 : Rat) ^ (1024 : Int)) :
    roundBinary64 (n * (2 : Rat) ^ u) = .val (n * (2 : Rat) ^ u) 0 [] := by
  by_cases hq : n * (2 : Rat) ^ u = 0
  · rw [hq]; rfl
  have hlt : |n * (2 : Rat) ^ u| < (2 : Rat) ^ (u + 53) := by
    rw [abs_mul, abs_zpow, abs_two, zpow_add₀ two_ne_zero, mul_comm]
    exact mul_lt_mul_of_pos_left (by exact_mod_cast hn) (by positivity)
  obtain ⟨j, hj⟩ := Int.le.dest (ulpExponent_le hq hu hlt)
  refine roundBinary64_of_multiple (k := n * 2 ^ j) ?_ h
  rw [Int.cast_mul, Int.cast_pow, Int.cast_ofNat, mul_assoc, ← zpow_natCast,
    ← zpow_add₀ two_ne_zero, add_comm (j : Int), hj]

/-- `2^53` units, the multiple next after the numbers of 53 bits, are not changed either. -/
theorem roundBinary64_of_abs_le {n u : Int} (hu : -1074 ≤ u) (hn : |n| ≤ 2 ^ 53)
    (h : |n * (2 : Rat) ^ u| < (2 : Rat) ^ (1024 : Int)) :
    roundBinary64 (n * (2 : Rat) ^ u) = .val (n * (2 : Rat) ^ u) 0 [] := by
  rcases hn.lt_or_eq with hlt | heq
  · exact roundBinary64_of_abs_lt hu hlt h
  · obtain ⟨k, rfl⟩ : (2 : Int) ∣ n := by rw [← dvd_abs, heq]; norm_num
    have shift : ((2 * k : Int) : Rat) * (2 : Rat) ^ u = k * (2 : Rat) ^ (u + 1) := by
      rw [zpow_add_one₀ two_ne_zero]; push_cast; ring
    rw [shift] at h ⊢
    exact roundBinary64_of_abs_lt (by omega) (by rw [abs_mul] at heq; norm_num at heq ⊢; omega) h

theorem rnd_binary64_rat (q : Rat) : rnd .binary64 (.val q 0 []) = roundBinary64 q := by
  simp [rnd]

theorem isAngleOf_binary64_iff (q : Rat) :
    isAngleOf .binary64 (.val q 0 []) = true ↔ roundBinary64 q = .val q 0 [] := by
  simp [isAngleOf, isNumber, rnd_binary64_rat]

/-- Below the overflow threshold, `q` is rounded to a binary64 number that is a multiple of the
unit in the last place, within half of it, ties to even. -/
theorem rnd_binary64_nearest {q : Rat} {u : Int} (hu : ulpExponent q = u) (hle : u ≤ 971)
    (h : |q| < (2 : Rat) ^ (1024 : Int) - (2 : Rat) ^ (970 : Int)) :
    ∃ n : Int, rnd .binary64 (.val q 0 []) = .val (n * (2 : Rat) ^ u) 0 [] ∧
      isAngleOf .binary64 (.val (n * (2 : Rat) ^ u) 0 []) = true ∧
      |n * (2 : Rat) ^ u - q| ≤ (2 : Rat) ^ (u - 1) ∧
      (|n * (2 : Rat) ^ u - q| = (2 : Rat) ^ (u - 1) → Even n) := by
  subst hu
  obtain ⟨near, even⟩ := significand_spec q
  have inRange : |significand q * (2 : Rat) ^ ulpExponent q| < (2 : Rat) ^ (1024 : Int) := by
    have half : (2 : Rat) ^ (ulpExponent q - 1) ≤ (2 : Rat) ^ (970 : Int) :=
      zpow_le_zpow_right₀ one_le_two (by omega)
    have tri := abs_sub_abs_le_abs_sub (significand q * (2 : Rat) ^ ulpExponent q) q
    linarith
  refine ⟨significand q, ?_, ?_, near, even⟩
  · rw [rnd_binary64_rat, roundBinary64_of_lt inRange]
  · rw [isAngleOf_binary64_iff]
    exact roundBinary64_of_abs_le (neg_1074_le_ulpExponent q) (abs_significand_le q) inRange

/-- The overflow threshold is half a unit below `2^1024`, the unit being `2^971`. -/
theorem overflow_threshold : (2 : Rat) ^ (1024 : Int) - (2 : Rat) ^ (970 : Int)
    = (2 ^ 53 - 1 / 2) * 2 ^ (971 : Int) := by
  rw [sub_mul, ← zpow_natCast, ← zpow_add₀ two_ne_zero, one_div, mul_comm (2⁻¹),
    ← zpow_sub_one₀ two_ne_zero]
  rfl

/-- From the overflow threshold on, `q` is rounded to at least `2^1024`: in the last binade before it
by the tie, beyond it because all 53 bits are there. -/
theorem roundBinary64_overflow {q : Rat}
    (h : (2 : Rat) ^ (1024 : Int) - (2 : Rat) ^ (970 : Int) ≤ |q|) :
    roundBinary64 q = .inf (decide (q < 0)) := by
  rw [overflow_threshold] at h
  have big : (2 : Rat) ^ ((971 : Int) + 52) ≤ |q| := by
    rw [zpow_add₀ two_ne_zero, mul_comm]
    exact (mul_le_mul_of_nonneg_right (by norm_num) (zpow_pos two_pos _).le).trans h
  have hq : q ≠ 0 := abs_pos.mp ((zpow_pos two_pos _).trans_le big)
  refine roundBinary64_of_le hq ?_
  rw [abs_significand]
  rcases (le_ulpExponent hq big).eq_or_lt with hu | hu
  · have hsig : 2 ^ 53 ≤ roundHalfEven (|q| / (2 : Rat) ^ (971 : Int)) := by
      refine (roundHalfEven_isNearestEven _).le_of_tie ?_ fun _ => by decide
      rw [le_div_iff₀ (zpow_pos two_pos _)]
      exact_mod_cast h
    calc (2 : Rat) ^ (1024 : Int) = 2 ^ 53 * 2 ^ (971 : Int) := by
          rw [← zpow_natCast, ← zpow_add₀ two_ne_zero]; rfl
      _ ≤ _ := by
          rw [← hu]
          exact mul_le_mul_of_nonneg_right (by exact_mod_cast hsig) (zpow_pos two_pos _).le
  · have hsig : 2 ^ 52 ≤ roundHalfEven (|q| / (2 : Rat) ^ ulpExponent q) := by
      have hbig := zpow_ulpExponent_le_abs hq (by omega)
      rw [zpow_add₀ two_ne_zero, mul_comm] at hbig
      refine le_roundHalfEven ?_
      rw [le_div_iff₀ (zpow_pos two_pos _)]
      exact_mod_cast hbig
    calc (2 : Rat) ^ (1024 : Int) ≤ 2 ^ (52 + ulpExponent q) :=
          zpow_le_zpow_right₀ one_le_two (by omega)
      _ = 2 ^ 52 * 2 ^ ulpExponent q := by rw [zpow_add₀ two_ne_zero]; rfl
      _ ≤ _ := mul_le_mul_of_nonneg_right (by exact_mod_cast hsig) (zpow_pos two_pos _).le

/-- The least normal number lies below the overflow threshold. -/
theorem zpow_neg_1022_le_threshold :
    (2 : Rat) ^ (-1022 : Int) ≤ (2 : Rat) ^ (1024 : Int) - (2 : Rat) ^ (970 : Int) := by
  rw [overflow_threshold]
  calc (2 : Rat) ^ (-1022 : Int) ≤ 2 ^ (971 : Int) := zpow_le_zpow_right₀ one_le_two (by norm_num)
    _ ≤ _ := le_mul_of_one_le_left (zpow_pos two_pos _).le (by norm_num)

/-- Settles O26: the unit in the last place is found from the range of `|q|`. -/
theorem binary64RoundsWithinHalfAnUlp : Obligations.Binary64RoundsWithinHalfAnUlp := by
  refine ⟨fun q e he hlo hhi hlt => ?_, fun q hlt => ?_, fun q h => ?_⟩
  · have hq : q ≠ 0 := abs_pos.mp ((by positivity : (0 : Rat) < _).trans_le hlo)
    have hu : ulpExponent q = e - 52 := le_antisymm
      (ulpExponent_le hq (by omega) (by rwa [show e - 52 + 53 = e + 1 by ring]))
      (le_ulpExponent hq (by rwa [sub_add_cancel]))
    have top : e < 1024 := lt_of_two_zpow_lt
      (hlo.trans_lt (hlt.trans (sub_lt_self _ (zpow_pos two_pos _))))
    have := rnd_binary64_nearest hu (by omega) hlt
    rwa [show e - 52 - 1 = e - 53 by ring] at this
  · by_cases hq : q = 0
    · subst hq
      refine ⟨0, ?_, ?_, ?_, fun _ => Even.zero⟩ <;> rw [Int.cast_zero, zero_mul]
      · rw [rnd_binary64_rat]; rfl
      · rw [isAngleOf_binary64_iff]; rfl
      · rw [sub_zero, abs_zero]; exact (zpow_pos two_pos _).le
    · have hu : ulpExponent q = -1074 := le_antisymm
        (ulpExponent_le hq le_rfl (hlt.trans_le (zpow_le_zpow_right₀ one_le_two (by norm_num))))
        (neg_1074_le_ulpExponent q)
      exact rnd_binary64_nearest hu (by norm_num) (hlt.trans_le zpow_neg_1022_le_threshold)
  · rw [rnd_binary64_rat, roundBinary64_overflow h]

end Sys2Proof.Machine
end

section
/-! SUPPORT. The invariants of 10_state R43: what each change of the state needs to keep them, and
what RESET leaves (70_reset R250). -/

namespace Sys2Proof.Machine

/-! ## The frame being received (40_frame_codec R112 to R114) -/

@[simp] theorem partialSum_zero (p : Payload) : partialSum p 0 = 0x00#8 := rfl

/-- The sum of all 21 bytes is the checksum. -/
theorem partialSum_length (p : Payload) : partialSum p 21 = checksum p := by
  rw [partialSum, List.take_of_length_le (by simp), checksum]

/-- Storing byte `n` adds it to the sum of the bytes before it. -/
theorem partialSum_setIfInBounds_succ (p : Payload) {n : Nat} (hn : n < 21) (b : Byte) :
    partialSum (p.setIfInBounds n b) (n + 1) = partialSum p n + b := by
  have hlen : n < p.toList.length := by simpa using hn
  have hstored : (p.setIfInBounds n b).toList = p.toList.set n b := by simp
  rw [partialSum, partialSum, hstored, List.take_add_one, List.take_set_of_le le_rfl,
    List.getElem?_set_self hlen, Option.toList_some, List.foldl_append, List.foldl_cons,
    List.foldl_nil]

/-- The sentinel check of SEQ_CSUM finds nothing exactly in a legal payload (30_encoding R83). -/
theorem hasSentinel_eq_false_iff (p : Payload) : hasSentinel p = false ↔ LegalPayload p := by
  rw [hasSentinel, List.any_eq_false, LegalPayload]
  constructor
  · intro h i
    have := h p[i] (by simp)
    simpa [isSentinel] using this
  · intro h b hb
    obtain ⟨i, hi, rfl⟩ := List.getElem_of_mem hb
    have := h ⟨i, by simpa using hi⟩
    simpa [isSentinel] using this

/-! ## Changes of the state that keep the invariants -/

/-- No invariant of R43 speaks of this SEQ_STATE. -/
def isUnconstrained : SeqState → Bool
  | .hunt | .flush | .arm | .terminated | .fault => true
  | .payload | .csum | .publish | .wait => false

section
variable {s : State}

theorem Inv.withSchedule (h : Inv s) (l : List Turn) : Inv { s with schedule := l } := { h with }

theorem Inv.withTarget (h : Inv s) (v : Angles) : Inv { s with target := v } := { h with }

theorem Inv.setResult (h : Inv s) (r : OpResult) : Inv (setResult r s) := { h with }

theorem Inv.txEmit (h : Inv s) (b : Byte) : Inv (txEmit b s) := { h with }

theorem Inv.recordCause (h : Inv s) (c : Cause) : Inv (recordCause c s) := { h with }

theorem Inv.setFifo (h : Inv s) {f : List Byte} (hf : f.length ≤ s.cfg.rxFifoDepth) :
    Inv (setFifo f s) := { h with fifoBound := hf }

/-- What is left after a FifoPop fits too. -/
theorem Inv.tail_length_le (h : Inv s) {b : Byte} {rest : List Byte} (hf : s.rxFifo = b :: rest) :
    rest.length ≤ s.cfg.rxFifoDepth := by
  have := h.fifoBound
  rw [hf, List.length_cons] at this
  omega

theorem Inv.setSeq (h : Inv s) {q : SeqState} (hq : isUnconstrained q = true) :
    Inv (setSeq q s) where
  config := h.config
  payloadIdx hp := by subst hp; cases hq
  csumIdx hp := by subst hp; cases hq
  runningSum hp := by rcases hp with hp | hp <;> subst hp <;> cases hq
  accepted hp := by subst hp; cases hq
  moving := h.moving
  timerBound := h.timerBound
  fifoBound := h.fifoBound
  armedTimer hp := by subst hp; cases hq

theorem Inv.nackAndHunt (h : Inv s) (c : Cause) : Inv (nackAndHunt c s) :=
  ((h.recordCause c).txEmit NACK).setSeq rfl

theorem Inv.raiseFault (h : Inv s) (c : Cause) : Inv (raiseFault c s) :=
  (h.recordCause c).setSeq rfl

theorem Inv.terminate (h : Inv s) (c : Cause) : Inv (terminate c s) :=
  (h.recordCause c).setSeq rfl

/-- Bytes received are no matter to any invariant but (g). -/
theorem Inv.pushBytes (h : Inv s) (l : List Byte) : Inv (pushBytes l s) := by
  obtain ⟨hframe, hfifo⟩ := pushBytes_frame l s
  rw [hframe]
  exact { h with fifoBound := hfifo h.fifoBound }

/-- The wait expires at 0; in HUNT, where it then goes on, the counter has no lower bound. -/
theorem Inv.countDown (h : Inv s) : Inv (countDown s) := by
  rcases countDown_cases s with ⟨hpos, heq⟩ | ⟨-, heq⟩ <;> rw [heq]
  · exact { h with
      timerBound := (Nat.sub_le _ _).trans h.timerBound
      armedTimer := fun _ _ => Nat.pos_of_ne_zero hpos }
  · exact { h.nackAndHunt .settleTimeout with
      timerBound := Nat.zero_le _
      armedTimer := nofun }

/-- A TICK recomputes MOVING from SETTLED at the last joint, and clears AWAITING or keeps it. -/
theorem Inv.tickTo (h : Inv s) (cur : Angles) : Inv (tickTo cur s) := by
  obtain ⟨t, stopped, heq, hframe, hsettled, -, hmoving, hawaiting, -⟩ := tickTo_spec cur s
  have hkept : t.moving = anyUnsettled t.settled := by
    rw [hmoving, movingAfter, if_neg (by decide), Bool.eq_iff_iff, anyUnsettled_iff,
      decide_eq_true_iff]
    simp only [hsettled]
  rw [heq]
  apply Inv.setResult
  rw [hframe]
  exact { h with
    moving := hkept
    armedTimer := fun hwait haw => h.armedTimer hwait (hawaiting.mp haw).1 }

theorem Inv.takeSync (h : Inv s) {rest : List Byte} (hr : rest.length ≤ s.cfg.rxFifoDepth) :
    Inv (takeSync rest s) :=
  { h with
    payloadIdx := fun _ => Nat.zero_le _
    csumIdx := nofun
    runningSum := fun _ => (partialSum_zero s.frame).symm
    accepted := nofun
    fifoBound := hr
    armedTimer := nofun }

/-- A payload byte is stored at an index up to 20, so the next index is at most 21, and at 21 the
frame is complete. -/
theorem Inv.takePayload (h : Inv s) (hseq : s.seqState = .payload) (b : Byte) {rest : List Byte}
    (hr : rest.length ≤ s.cfg.rxFifoDepth) : Inv (takePayload b rest s) := by
  have hidx := h.payloadIdx hseq
  have hnext : (s.rxIdx + 1#5).toNat = s.rxIdx.toNat + 1 := by bv_omega
  have hsum : s.rxSum + b = partialSum (storeFrame b s) (s.rxIdx + 1#5).toNat := by
    rw [hnext, storeFrame, partialSum_setIfInBounds_succ _ (by omega), h.runningSum (.inl hseq)]
  by_cases hlast : s.rxIdx + 1#5 = 21#5
  · have hcsum : (Machine.takePayload b rest s).seqState = .csum := by simp [hlast]
    exact { h with
      payloadIdx := fun hq => nomatch hcsum.symm.trans hq
      csumIdx := fun _ => hlast
      runningSum := fun _ => hsum
      accepted := fun hq => nomatch hcsum.symm.trans hq
      fifoBound := hr
      armedTimer := fun hq => nomatch hcsum.symm.trans hq }
  · have hpayload : (Machine.takePayload b rest s).seqState = .payload := by simp [hlast, hseq]
    have hbound : (s.rxIdx + 1#5).toNat ≤ 20 := by bv_omega
    exact { h with
      payloadIdx := fun _ => hbound
      csumIdx := fun hq => nomatch hpayload.symm.trans hq
      runningSum := fun _ => hsum
      accepted := fun hq => nomatch hpayload.symm.trans hq
      fifoBound := hr
      armedTimer := fun hq => nomatch hpayload.symm.trans hq }

/-- A frame is accepted only when the byte received is the sum of all 21 stored and none of these
is a sentinel. -/
theorem Inv.judgeFrame (h : Inv s) (hseq : s.seqState = .csum) (c : Byte) {rest : List Byte}
    (hr : rest.length ≤ s.cfg.rxFifoDepth) : Inv (judgeFrame c rest s) := by
  have hfifo := h.setFifo hr
  rcases judgeFrame_cases c rest s with ⟨-, heq⟩ | ⟨-, -, heq⟩ | ⟨-, hlegal, heq⟩ <;> rw [heq]
  · exact hfifo.nackAndHunt .protocolError
  · exact hfifo.raiseFault .invalidArgument
  · have hsum : s.rxSum = checksum s.frame := by
      rw [h.runningSum (.inr hseq), h.csumIdx hseq, ← partialSum_length]
      rfl
    exact { hfifo with
      payloadIdx := nofun
      csumIdx := nofun
      runningSum := nofun
      accepted := fun _ => ⟨(hasSentinel_eq_false_iff _).mp hlegal, hsum⟩
      armedTimer := nofun }

theorem Inv.publishTargets (h : Inv s) : Inv (publishTargets s) :=
  (h.withTarget (convertedTargets s)).setSeq rfl

theorem Inv.flushInput (h : Inv s) : Inv (flushInput s) :=
  (h.setFifo (Nat.zero_le _)).setSeq rfl

theorem one_le_timeoutTicks {c : Config} (h : validConfig c = true) : 1 ≤ timeoutTicks c := by
  simp only [validConfig, Bool.and_eq_true, decide_eq_true_eq] at h
  obtain ⟨⟨-, hticks⟩, -⟩ := h
  exact hticks

/-- The wait is armed with TIMEOUT_TICKS, which a legal configuration makes at least 1. -/
theorem Inv.armWait (h : Inv s) : Inv (armWait s) :=
  { h with
    payloadIdx := nofun
    csumIdx := nofun
    runningSum := nofun
    accepted := nofun
    timerBound := le_rfl
    armedTimer := fun _ _ => one_le_timeoutTicks h.config }

theorem Inv.acknowledge (h : Inv s) : Inv (acknowledge s) := (h.txEmit ACK).setSeq rfl

/-- RESET meets the invariants from every state of a legal configuration (70_reset R250). -/
theorem inv_resetTo (h : validConfig s.cfg = true) (init : Angles) : Inv (resetTo init s) where
  config := h
  payloadIdx := nofun
  csumIdx := nofun
  runningSum := nofun
  accepted := nofun
  moving := by simp [anyUnsettled]
  timerBound := Nat.zero_le _
  fifoBound := Nat.zero_le _
  armedTimer := nofun

theorem seqState_of_reading {q : SeqState} (h : reading q s = true) : s.seqState = q := by
  rw [reading, Bool.and_eq_true, beq_iff_eq] at h
  exact h.left

/-- Whatever the block does keeps the invariants. -/
theorem Inv.effect {t : State} (h : Inv s) (he : Effect s t) : Inv t := by
  cases he with
  | reset init => exact inv_resetTo h.config init
  | receive l => exact (h.pushBytes l).setResult .none
  | endOfStream => exact { h with }
  | requestCancel => exact { h with }
  | answer r => exact h.setResult r
  | count => exact h.countDown.setResult .none
  | tick cur => exact h.tickTo cur
  | discard b rest hf => exact h.setFifo (h.tail_length_le hf)
  | sync rest hf => exact h.takeSync (h.tail_length_le hf)
  | payload b rest hf hr => exact h.takePayload (seqState_of_reading hr) b (h.tail_length_le hf)
  | checksum c rest hf hr => exact h.judgeFrame (seqState_of_reading hr) c (h.tail_length_le hf)
  | close => exact h.terminate .streamClosed
  | publish => exact h.publishTargets
  | flush => exact h.flushInput
  | arm => exact h.armWait
  | ack => exact h.acknowledge
  | cancel => exact h.terminate .cancelled

end

/-- Settles O46, by what a step can do. -/
theorem stepKeepsTheInvariants : Obligations.StepKeepsTheInvariants := by
  intro s t h hstep
  exact (h.withSchedule s.schedule.tail).effect (step_effect hstep)

theorem validConfig_testInstance : validConfig testInstance = true := by decide

theorem exec_reset {s : State} {init : Angles}
    (h : ∀ j : Joint, isAngleOf s.cfg.arith init[j] = true) :
    exec (.reset init) s = .next (resetTo init s) :=
  withCheckedAngles_next_iff.mpr ⟨angleRefusal_none_iff.mpr h, rfl⟩

/-- Settles O47: the state after reset is one that RESET leaves. -/
theorem resetMeetsTheInvariants : Obligations.ResetMeetsTheInvariants :=
  ⟨inv_resetTo (s := State.reset) validConfig_testInstance zeroAngles,
    fun _ init hcfg hinit => ⟨_, exec_reset hinit, inv_resetTo hcfg init⟩⟩

end Sys2Proof.Machine
end

section
/-! SUPPORT. Observation: the register map of READ_REG and the STATUS word (10_state R40, R41). -/

namespace Sys2Proof.Machine

/-! ## SETTLED_VEC -/

/-- SETTLED_VEC as a word, SETTLED[0] in its lowest bit. -/
theorem settledVec_eq_toNat (v : Vector Bool 18) :
    settledVec v = (BitVec.ofBoolListLE v.toList).toNat := by
  rw [settledVec]
  induction v.toList with
  | nil => rfl
  | cons b l ih =>
    rw [List.foldr_cons, ih, BitVec.ofBoolListLE, BitVec.toNat_concat]
    cases b <;> simp [mul_comm]

theorem settledVec_lt (v : Vector Bool 18) : settledVec v < 2 ^ 18 := by
  have := (BitVec.ofBoolListLE v.toList).isLt
  rwa [← settledVec_eq_toNat, Vector.length_toList] at this

theorem testBit_settledVec (v : Vector Bool 18) (j : Joint) :
    (settledVec v).testBit j.val = v[j] := by
  rw [settledVec_eq_toNat, BitVec.testBit_toNat, BitVec.getLsbD_ofBoolListLE]
  simp

/-! ## The register map -/

section
variable {s : State} {n : BitVec 8}

/-- READ_REG writes nothing but its result. -/
theorem exec_readReg {r : OpResult} (h : registerValue s n = r) :
    exec (.readReg n) s = .next { s with result := r } := by
  rw [← h]
  rfl

theorem registerValue_timer (h : s.timer < 65536) : registerValue s 0x03#8 = .nat s.timer :=
  congrArg OpResult.nat (Nat.mod_eq_of_lt h)

theorem registerValue_driveOut {j : Joint} (hn : n.toNat = 0x10 + j.val) :
    registerValue s n = .nat (driveBits s.driveOut[j]).toNat := by
  simp (disch := omega) only [registerValue, BitVec.toNat_eq, BitVec.toNat_ofNat, if_neg, dif_pos]
  simp [hn]

theorem registerValue_target {j : Joint} (hn : n.toNat = 0x40 + j.val) :
    registerValue s n = .angle s.target[j] := by
  simp (disch := omega) only [registerValue, BitVec.toNat_eq, BitVec.toNat_ofNat, if_neg, dif_neg,
    dif_pos]
  simp [hn]

theorem registerValue_zero {j : Joint} (hn : n.toNat = 0x60 + j.val) :
    registerValue s n = .angle s.zero[j] := by
  simp (disch := omega) only [registerValue, BitVec.toNat_eq, BitVec.toNat_ofNat, if_neg, dif_neg,
    dif_pos]
  simp [hn]

theorem registerValue_frame {i : ServoIndex} (hn : n.toNat = 0x80 + i.val) :
    registerValue s n = .nat s.frame[i].toNat := by
  simp (disch := omega) only [registerValue, BitVec.toNat_eq, BitVec.toNat_ofNat, if_neg, dif_neg,
    dif_pos]
  simp [hn]

/-- The numbers between the ranges of the map, and after the last, read as 0. -/
theorem registerValue_reserved
    (hn : (0x06 ≤ n.toNat ∧ n.toNat ≤ 0x0F) ∨ (0x22 ≤ n.toNat ∧ n.toNat ≤ 0x3F) ∨
      (0x52 ≤ n.toNat ∧ n.toNat ≤ 0x5F) ∨ (0x72 ≤ n.toNat ∧ n.toNat ≤ 0x7F) ∨
      0x95 ≤ n.toNat) : registerValue s n = .nat 0 := by
  simp (disch := omega) only [registerValue, BitVec.toNat_eq, BitVec.toNat_ofNat, if_neg, dif_neg]

end

/-- Settles O44: each number of the map by its range. -/
theorem readRegReturnsTheMap : Obligations.ReadRegReturnsTheMap := by
  intro s
  have inByte : ∀ {k : Nat}, k < 256 → (BitVec.ofNat 8 k).toNat = k := Nat.mod_eq_of_lt
  refine ⟨fun n => ⟨_, exec_readReg rfl⟩, exec_readReg rfl, exec_readReg rfl,
    fun h => exec_readReg (registerValue_timer h),
    ⟨settledVec s.settled, exec_readReg rfl, settledVec_lt _, testBit_settledVec _⟩,
    exec_readReg rfl, fun j => ⟨?_, ?_, ?_⟩, fun i => ?_,
    fun n h => exec_readReg (registerValue_reserved h)⟩
  · exact exec_readReg (registerValue_driveOut (inByte (by omega)))
  · exact exec_readReg (registerValue_target (inByte (by omega)))
  · exact exec_readReg (registerValue_zero (inByte (by omega)))
  · exact exec_readReg (registerValue_frame (inByte (by omega)))

/-! ## STATUS -/

@[simp] theorem getElem_bit (b : Bool) : (bit b)[0] = b := by cases b <;> rfl

section
variable (s : State)

theorem statusWord_seqState : (statusWord s).extractLsb' 0 4 = seqBits s.seqState :=
  BitVec.extractLsb'_append_eq_right

theorem statusWord_flags : (statusWord s).getLsbD 4 = s.awaiting ∧
    (statusWord s).getLsbD 5 = s.moving ∧ (statusWord s).getLsbD 6 = s.cancelLatch ∧
    (statusWord s).getLsbD 7 = s.eosLatch ∧ (statusWord s).getLsbD 8 = s.rxOverrun := by
  simp only [statusWord, BitVec.getLsbD_append]
  simp

theorem statusWord_reserved : (statusWord s).extractLsb' 9 3 = 0#3 := by
  simp only [statusWord, BitVec.extractLsb'_append_eq_of_le, Nat.reduceLeDiff, Nat.reduceSub]
  exact BitVec.extractLsb'_append_eq_right

theorem statusWord_cause : (statusWord s).extractLsb' 12 4 = causeBits s.cause := by
  simp only [statusWord, BitVec.extractLsb'_append_eq_of_le, Nat.reduceLeDiff, Nat.reduceSub]
  exact BitVec.extractLsb'_eq_self

/-- After RESET only MOVING is set. -/
theorem statusWord_resetTo (init : Angles) : statusWord (resetTo init s) = 0x0020#16 := by
  simp [statusWord, bit, causeBits, seqBits]

end

/-- Settles O43: STATUS field by field. -/
theorem statusWordFields : Obligations.StatusWordFields := by
  refine ⟨fun s init hinit => ⟨_, exec_reset hinit, ?_⟩, fun s => ⟨statusWord s, ?_⟩⟩
  · exact exec_readReg
      (congrArg (fun w : BitVec 16 => OpResult.nat w.toNat) (statusWord_resetTo s init))
  · obtain ⟨hawaiting, hmoving, hcancel, heos, hoverrun⟩ := statusWord_flags s
    exact ⟨exec_readReg rfl, statusWord_seqState s, hawaiting, hmoving, hcancel, heos, hoverrun,
      statusWord_reserved s, statusWord_cause s⟩

end Sys2Proof.Machine
end

section
/-! SUPPORT. What is fixed when the block is built: no step writes it (20_memory R57), and SERVO_MAP
is a bijection from the 18 pairs onto 0..17 (20_memory R58, R60). -/

namespace Sys2Proof.Machine

/-! ## The configuration -/

section
variable (s : State)

@[simp] theorem pushBytes_cfg (l : List Byte) : (pushBytes l s).cfg = s.cfg := by
  rw [(pushBytes_frame l s).1]

@[simp] theorem countDown_cfg : (countDown s).cfg = s.cfg := by
  rcases countDown_cases s with ⟨-, heq⟩ | ⟨-, heq⟩ <;> simp [heq]

@[simp] theorem judgeFrame_cfg (c : Byte) (rest : List Byte) :
    (judgeFrame c rest s).cfg = s.cfg := by
  rcases judgeFrame_cases c rest s with ⟨-, heq⟩ | ⟨-, -, heq⟩ | ⟨-, -, heq⟩ <;> simp [heq]

@[simp] theorem tickTo_cfg (cur : Angles) : (tickTo cur s).cfg = s.cfg := by
  obtain ⟨t, stopped, heq, hframe, -⟩ := tickTo_spec cur s
  rw [heq, setResult_cfg, hframe]

end

/-- Whatever the block does keeps the configuration. -/
theorem Effect.cfg_eq {s t : State} (h : Effect s t) : t.cfg = s.cfg := by
  cases h with
  | reset init => exact resetTo_cfg s init
  | receive l => exact pushBytes_cfg s l
  | endOfStream => rfl
  | requestCancel => rfl
  | answer r => rfl
  | count => exact countDown_cfg s
  | tick cur => exact tickTo_cfg s cur
  | discard b rest => exact setFifo_cfg s rest
  | sync rest => exact takeSync_cfg s rest
  | payload b rest => exact takePayload_cfg s b rest
  | checksum c rest => exact judgeFrame_cfg s c rest
  | close => exact closeStream_cfg s
  | publish => exact publishTargets_cfg s
  | flush => exact flushInput_cfg s
  | arm => exact armWait_cfg s
  | ack => exact acknowledge_cfg s
  | cancel => exact cancelSequencer_cfg s

/-- Settles O7, by what a step and an instruction can do. -/
theorem configurationIsNeverWritten : Obligations.ConfigurationIsNeverWritten :=
  ⟨fun _ _ h => (step_effect h).cfg_eq, fun _ _ _ h => (exec_effect h).cfg_eq⟩

/-! ## Pairs, joint indices and codes (20_memory R52, 30_encoding R88) -/

@[simp] theorem legOfJoint_jointOf (leg : Leg) (art : Art) : legOfJoint (jointOf leg art) = leg := by
  cases leg <;> cases art <;> rfl

@[simp] theorem artOfJoint_jointOf (leg : Leg) (art : Art) : artOfJoint (jointOf leg art) = art := by
  cases leg <;> cases art <;> rfl

@[simp] theorem jointOf_legOfJoint_artOfJoint :
    ∀ j : Joint, jointOf (legOfJoint j) (artOfJoint j) = j := by
  decide

/-- SERVO_MAP by pairs is SERVO_MAP by joint index. -/
theorem servoIndex_ofJoint (c : Config) (j : Joint) :
    servoIndex c (legOfJoint j) (artOfJoint j) = c.servoMap[j] := by
  simp only [servoIndex, jointOf_legOfJoint_artOfJoint]

theorem legOfCode_eq_none_iff : ∀ code : BitVec 3, legOfCode code = none ↔ 6 ≤ code.toNat := by
  decide

theorem artOfCode_eq_none_iff : ∀ code : BitVec 2, artOfCode code = none ↔ code.toNat = 3 := by
  decide

/-- A leg code and the leg it names have the same number. -/
theorem legCode_of_legOfCode {leg : Leg} :
    ∀ {code : BitVec 3}, legOfCode code = some leg → (legCode leg).val = code.toNat := by
  cases leg <;> decide

/-- An articulation code and the articulation it names have the same number. -/
theorem artCode_of_artOfCode {art : Art} :
    ∀ {code : BitVec 2}, artOfCode code = some art → (artCode art).val = code.toNat := by
  cases art <;> decide

/-! ## Lookups by codes (20_memory R60) -/

section
variable (c : Config) {leg : BitVec 3} {art : BitVec 2}

theorem servoLookup_absent (h : 6 ≤ leg.toNat ∨ art.toNat = 3) :
    servoLookup c leg art = .error .invalidArgument := by
  rw [← legOfCode_eq_none_iff, ← artOfCode_eq_none_iff] at h
  rcases h with h | h
  · simp only [servoLookup, h]
  · cases hleg : legOfCode leg <;> simp only [servoLookup, hleg, h]

/-- A lookup with both codes present answers the map's entry for the joint `3·leg + art`. -/
theorem servoLookup_present (hleg : leg.toNat < 6) (hart : art.toNat < 3) {j : Joint}
    (hj : j.val = 3 * leg.toNat + art.toNat) : servoLookup c leg art = .ok c.servoMap[j] := by
  obtain ⟨l, hl⟩ : ∃ l, legOfCode leg = some l :=
    Option.ne_none_iff_exists'.mp (by rw [ne_eq, legOfCode_eq_none_iff]; omega)
  obtain ⟨a, ha⟩ : ∃ a, artOfCode art = some a :=
    Option.ne_none_iff_exists'.mp (by rw [ne_eq, artOfCode_eq_none_iff]; omega)
  have hjoint : jointOf l a = j :=
    Fin.ext (by rw [hj, ← legCode_of_legOfCode hl, ← artCode_of_artOfCode ha, jointOf])
  simp only [servoLookup, hl, ha, servoIndex, hjoint]

end

/-! ## SERVO_MAP of a legal configuration (20_memory R58) -/

section
variable {c : Config}

theorem servoMap_of_validConfig (h : validConfig c = true) :
    (∀ i ∈ c.servoMap.toList, i.val < 18) ∧ c.servoMap.toList.Nodup := by
  simp only [validConfig, Bool.and_eq_true, decide_eq_true_eq, List.all_eq_true,
    and_assoc] at h
  obtain ⟨hlt, hnodup, -⟩ := h
  exact ⟨hlt, hnodup⟩

theorem servoMap_lt (h : validConfig c = true) (j : Joint) : c.servoMap[j].val < 18 :=
  (servoMap_of_validConfig h).1 _ (by simp)

theorem servoMap_injective (h : validConfig c = true) :
    Function.Injective fun j : Joint => c.servoMap[j] := by
  intro j k hjk
  have hnodup := (servoMap_of_validConfig h).2
  exact Fin.ext ((hnodup.getElem_inj_iff (hi := by simp) (hj := by simp)).mp (by simpa using hjk))

/-- SERVO_MAP permutes 18 numbers, so it reaches each of 0..17. -/
theorem servoMap_surjective (h : validConfig c = true) {i : ServoIndex} (hi : i.val < 18) :
    ∃ j : Joint, c.servoMap[j] = i := by
  have hinj : Function.Injective fun j : Joint => (⟨c.servoMap[j].val, servoMap_lt h j⟩ : Joint) :=
    fun j k hjk => servoMap_injective h (Fin.ext (Fin.mk.inj hjk))
  obtain ⟨j, hj⟩ := Finite.surjective_of_injective hinj ⟨i.val, hi⟩
  exact ⟨j, Fin.ext (Fin.mk.inj hj)⟩

/-- SERVO_INV undoes SERVO_MAP: only the joint itself has its servo index. -/
theorem servoInv_servoMap (h : validConfig c = true) (j : Joint) :
    servoInv c c.servoMap[j] = some (legOfJoint j, artOfJoint j) := by
  rw [servoInv]
  cases hfind : (List.finRange 18).find? fun k => c.servoMap[k] == c.servoMap[j] with
  | none => simpa using List.find?_eq_none.mp hfind j (List.mem_finRange j)
  | some k =>
    have hk : c.servoMap[k] = c.servoMap[j] := by simpa using List.find?_some hfind
    rw [servoMap_injective h hk, Option.map_some]

theorem servoInv_eq_none {i : ServoIndex} (h : ∀ j : Joint, c.servoMap[j] ≠ i) :
    servoInv c i = none := by
  rw [servoInv, Option.map_eq_none_iff, List.find?_eq_none]
  intro j _
  simpa using h j

end

/-- Settles O51: SERVO_MAP by joint index, carried over to pairs and to codes. -/
theorem servoMapIsABijection : Obligations.ServoMapIsABijection := by
  refine ⟨fun c h => ⟨fun leg art => ⟨servoMap_lt h _, ?_⟩, fun i hi => ?_, fun i hi => ?_⟩,
    fun c leg art => ⟨servoLookup_absent c, fun hleg hart => ?_⟩⟩
  · rw [servoIndex, servoInv_servoMap h, legOfJoint_jointOf, artOfJoint_jointOf]
  · obtain ⟨j, hj⟩ := servoMap_surjective h hi
    exact ⟨legOfJoint j, artOfJoint j, by rw [servoIndex_ofJoint, hj]⟩
  · exact servoInv_eq_none fun j hj => absurd (servoMap_lt h j) (by rw [hj]; omega)
  · have hk := servoLookup_present c (j := ⟨3 * leg.toNat + art.toNat, by omega⟩) hleg hart rfl
    exact ⟨_, hk, fun j hj => Except.ok.inj (hk.symm.trans (servoLookup_present c hleg hart hj))⟩

end Sys2Proof.Machine
end

section
/-! SUPPORT. Encodings (30_encoding): the decoder and the encoder invert each other, and what R91
refuses decodes to nothing that runs. -/

namespace Sys2Proof.Laws.Encoding

/-! ## What the encoder writes is read back -/

/-- The round trip of each row. -/
theorem decode_of_encode (i : Instr) : Statement i := by
  cases i with
  | reset init => exact reset init
  | rxByte b => exact rxByte b
  | rxEos => exact rxEos
  | cancel => exact cancel
  | tick cur => exact tick cur
  | timeTick => exact timeTick
  | readReg n => exact readReg n
  | snapshot => exact snapshot
  | encode p => exact encode p
  | reserved9 imm => exact reserved9 imm
  | reservedAB imm low => exact reservedAB imm low
  | reservedCF imm low => exact reservedCF imm low
  | seqHuntDiscard => exact seqHuntDiscard
  | seqSync => exact seqSync
  | seqPayload => exact seqPayload
  | seqCsum => exact seqCsum
  | seqEos => exact seqEos
  | seqPublish => exact seqPublish
  | seqFlush => exact seqFlush
  | seqArm => exact seqArm
  | seqAck => exact seqAck
  | seqCancel => exact seqCancel
  | wireSync => exact wireSync
  | wireGarbage b => exact wireGarbage b
  | wirePayload b => exact wirePayload b
  | wireChecksum c => exact wireChecksum c
  | frame p cs => exact frame cs p
  | ack => exact ack
  | nack => exact nack
  | driveZero cur => exact driveZero cur
  | driveSoftPos cur => exact driveSoftPos cur
  | driveSoftNeg cur => exact driveSoftNeg cur
  | driveFullPos cur => exact driveFullPos cur
  | driveFullNeg cur => exact driveFullNeg cur
  | driveReset init => exact driveReset init
  | causeNone init => exact causeNone init
  | causeProtocolError => exact causeProtocolError
  | causeInvalidArgument => exact causeInvalidArgument
  | causeStreamClosed => exact causeStreamClosed
  | causeCancelled => exact causeCancelled
  | causeSettleTimeout => exact causeSettleTimeout
  | causeRxOverrun => exact causeRxOverrun

end Sys2Proof.Laws.Encoding

namespace Sys2Proof.Machine

open Laws.Encoding (opWord_op opWord_imm withAngles_toList decode_of_encode)

theorem encode_seqInstr (k : SeqStep) : encode (seqInstr k) = none := by cases k <;> rfl

/-- Only the SEQ steps have no encoding (30_encoding R92). -/
theorem exists_seqInstr_of_encode_eq_none {i : Instr} :
    encode i = none → ∃ k : SeqStep, i = seqInstr k := by
  cases i with
  | seqHuntDiscard => exact fun _ => ⟨.huntDiscard, rfl⟩
  | seqSync => exact fun _ => ⟨.sync, rfl⟩
  | seqPayload => exact fun _ => ⟨.payload, rfl⟩
  | seqCsum => exact fun _ => ⟨.csum, rfl⟩
  | seqEos => exact fun _ => ⟨.eos, rfl⟩
  | seqPublish => exact fun _ => ⟨.publish, rfl⟩
  | seqFlush => exact fun _ => ⟨.flush, rfl⟩
  | seqArm => exact fun _ => ⟨.arm, rfl⟩
  | seqAck => exact fun _ => ⟨.ack, rfl⟩
  | seqCancel => exact fun _ => ⟨.cancel, rfl⟩
  | _ => exact nofun

/-- Settles O1: the round trip row by row, and the ten SEQ steps by name. -/
theorem decodeEncodeRoundTrip : Obligations.DecodeEncodeRoundTrip := by
  refine ⟨decode_of_encode, fun i => ⟨exists_seqInstr_of_encode_eq_none, ?_⟩⟩
  rintro ⟨k, rfl⟩
  exact encode_seqInstr k

/-- Settles O3: each word by evaluating the decoder on it. -/
theorem specWordsDecode : Obligations.SpecWordsDecode := by
  intro st
  exact ⟨rfl, rfl, rfl, rfl, rfl, rfl, rfl, withAngles_toList zeroAngles _, rfl, rfl, rfl, rfl,
    withAngles_toList zeroAngles _, rfl⟩

/-! ## What the decoder reads is what the encoder writes -/

section
variable {v : OperandVector} {i : Instr}

theorem withNothing_eq_ok {j : Instr} (h : withNothing v i = .ok j) : v = .empty ∧ i = j := by
  cases v with
  | empty => exact ⟨rfl, Except.ok.inj h⟩
  | angles l => cases h
  | bytes l => cases h

theorem withAngles_eq_ok {f : Angles → Instr} (h : withAngles v f = .ok i) :
    ∃ a : Angles, v = .angles a.toList ∧ f a = i := by
  cases v with
  | empty => cases h
  | angles l =>
    rw [withAngles] at h
    split at h
    · exact ⟨_, rfl, Except.ok.inj h⟩
    · cases h
  | bytes l => cases h

theorem withBytes_eq_ok {f : Payload → Instr} (h : withBytes v f = .ok i) :
    ∃ p : Payload, v = .bytes p.toList ∧ f p = i := by
  cases v with
  | empty => cases h
  | angles l => cases h
  | bytes l =>
    rw [withBytes] at h
    split at h
    · exact ⟨_, rfl, Except.ok.inj h⟩
    · cases h

theorem immZero_eq_ok {imm : BitVec 8} {r : Except DecodeError Instr}
    (h : immZero imm r = .ok i) : imm = 0#8 ∧ r = .ok i := by
  rw [immZero] at h
  split at h
  · exact ⟨‹_›, h⟩
  · cases h

theorem opWord_fields (w : BitVec 12) :
    opWord (w.extractLsb' 0 4) (w.extractLsb' 4 8) = w := by
  rw [opWord]
  exact (BitVec.extractLsb'_append_extractLsb'_eq_extractLsb' rfl).trans BitVec.extractLsb'_eq_self


theorem encode_of_withNothing {P : OperandVector → Packet} {j : Instr}
    (hj : encode j = some (P .empty)) (h : withNothing v j = .ok i) : encode i = some (P v) := by
  obtain ⟨rfl, rfl⟩ := withNothing_eq_ok h
  exact hj

theorem encode_of_withAngles {P : OperandVector → Packet} {f : Angles → Instr}
    (hf : ∀ a : Angles, encode (f a) = some (P (.angles a.toList)))
    (h : withAngles v f = .ok i) : encode i = some (P v) := by
  obtain ⟨a, rfl, rfl⟩ := withAngles_eq_ok h
  exact hf a

theorem encode_of_withBytes {P : OperandVector → Packet} {f : Payload → Instr}
    (hf : ∀ p : Payload, encode (f p) = some (P (.bytes p.toList)))
    (h : withBytes v f = .ok i) : encode i = some (P v) := by
  obtain ⟨p, rfl, rfl⟩ := withBytes_eq_ok h
  exact hf p

theorem eq_ofNat_of_toNat_eq {n k : Nat} {x : BitVec n} (h : x.toNat = k) :
    x = BitVec.ofNat n k := by
  rw [← h, BitVec.ofNat_toNat, BitVec.setWidth_eq]

theorem encode_of_decodeOp {w : BitVec 12} (h : decodeOp w v = .ok i) (hr : isReserved i = false) :
    encode i = some (.op w v) := by
  obtain ⟨op, imm, rfl⟩ : ∃ op imm, w = opWord op imm := ⟨_, _, (opWord_fields w).symm⟩
  simp only [decodeOp, opWord_op, opWord_imm] at h
  split at h
  -- RESET and TICK
  case h_1 hop | h_5 hop =>
    obtain rfl := eq_ofNat_of_toNat_eq hop
    obtain ⟨rfl, h⟩ := immZero_eq_ok h
    exact encode_of_withAngles (fun _ => rfl) h
  -- RX_BYTE and READ_REG
  case h_2 hop | h_7 hop =>
    obtain rfl := eq_ofNat_of_toNat_eq hop
    exact encode_of_withNothing rfl h
  -- RX_EOS, CANCEL, TIME_TICK and SNAPSHOT
  case h_3 hop | h_4 hop | h_6 hop | h_8 hop =>
    obtain rfl := eq_ofNat_of_toNat_eq hop
    obtain ⟨rfl, h⟩ := immZero_eq_ok h
    exact encode_of_withNothing rfl h
  -- ENCODE
  case h_9 hop =>
    obtain rfl := eq_ofNat_of_toNat_eq hop
    obtain ⟨rfl, h⟩ := immZero_eq_ok h
    exact encode_of_withBytes (fun _ => rfl) h
  -- RESERVED
  all_goals cases h; cases hr

theorem encode_of_decodeDrive {c : BitVec 4} (h : decodeDrive c v = .ok i) :
    encode i = some (.drive c v) := by
  rw [decodeDrive] at h
  split at h
  case h_7 => cases h
  all_goals
    obtain rfl := eq_ofNat_of_toNat_eq ‹_›
    exact encode_of_withAngles (fun _ => rfl) h

theorem encode_of_decodeCause {c : BitVec 4} (h : decodeCause c v = .ok i) :
    encode i = some (.cause c v) := by
  rw [decodeCause] at h
  split at h
  case h_1 hc =>
    obtain rfl := eq_ofNat_of_toNat_eq hc
    exact encode_of_withAngles (fun _ => rfl) h
  case h_8 => cases h
  all_goals
    obtain rfl := eq_ofNat_of_toNat_eq ‹_›
    exact encode_of_withNothing rfl h

theorem encode_of_decodeWire {st : SeqState} {b : Byte} (h : decodeWire st b = .ok i) :
    encode i = some (.wire b) := by
  cases st with
  | hunt =>
    rw [decodeWire] at h
    split at h
    · subst b; cases h; rfl
    · cases h; rfl
  | payload => cases h; rfl
  | csum => cases h; rfl
  | _ => cases h

theorem encode_of_decodeResp {b : Byte} (h : decodeResp b = .ok i) : encode i = some (.resp b) := by
  rw [decodeResp] at h
  split at h
  · subst b; cases h; rfl
  · split at h
    · subst b; cases h; rfl
    · cases h

/-- A frame is put together again from its payload and its checksum byte. -/
theorem frameBytes_of_sync {f : FrameBytes} (h : f[0] = SYNC) :
    frameBytes (Vector.ofFn fun i => f[i.val + 1]) f[22] = f := by
  refine Vector.ext fun k hk => ?_
  rw [frameBytes, Vector.getElem_ofFn]
  rcases Nat.eq_zero_or_pos k with rfl | hpos
  · rw [if_pos rfl, h]
  · rw [if_neg hpos.ne']
    split
    · simp [Nat.sub_add_cancel hpos]
    · obtain rfl : k = 22 := by simp_all; omega
      rfl

theorem encode_of_decodeFrame {f : FrameBytes} (h : decodeFrame f = .ok i) :
    encode i = some (.frame f) := by
  rw [decodeFrame] at h
  split at h
  · cases h
    rw [encode, frameBytes_of_sync ‹_›]
  · cases h

/-- A packet that decodes is written by the encoder, RESERVED words apart. -/
theorem encode_of_decode {st : SeqState} {p : Packet} (h : decode st p = .ok i)
    (hr : isReserved i = false) : encode i = some p := by
  cases p with
  | op w v => exact encode_of_decodeOp h hr
  | wire b => exact encode_of_decodeWire h
  | frame f => exact encode_of_decodeFrame h
  | resp b => exact encode_of_decodeResp h
  | drive c v => exact encode_of_decodeDrive h
  | cause c v => exact encode_of_decodeCause h

end

/-- Settles O2, format by format. -/
theorem decodedPacketIsTheEncoding : Obligations.DecodedPacketIsTheEncoding :=
  fun _ _ _ => encode_of_decode

/-! ## What R91 refuses -/

/-- The encoder writes IMM8 for RX_BYTE and READ_REG only, beside every operation the vector R90
gives it, and OP 0x9 to 0xF for RESERVED only. -/
theorem wellShaped_of_encode {i : Instr} {w : BitVec 12} {v : OperandVector}
    (h : encode i = some (.op w v)) (hr : isReserved i = false) :
    (w.extractLsb' 0 4).toNat < 9 ∧
      (w.extractLsb' 4 8 = 0#8 ∨ (w.extractLsb' 0 4).toNat = 1 ∨ (w.extractLsb' 0 4).toNat = 6) ∧
      HasShape (w.extractLsb' 0 4).toNat v := by
  cases i with
  | reset | rxByte | rxEos | cancel | tick | timeTick | readReg | snapshot | encode =>
    cases h
    simp [opWord_op, opWord_imm, HasShape]
  | reserved9 | reservedAB | reservedCF => cases hr
  | _ => cases h

theorem exec_of_isReserved {i : Instr} (h : isReserved i = true) (s : State) :
    exec i s = .refused .reservedOp := by
  cases i with
  | reserved9 | reservedAB | reservedCF => rfl
  | _ => cases h

/-- A packet that decodes, if at all, to a RESERVED instruction is refused when its turn comes. -/
theorem takeTurn_refused {p : Packet} {s : State}
    (h : ∀ i, decode s.seqState p = .ok i → isReserved i = true) :
    ∃ r : Refusal, takeTurn (.packet p) s = .refused r := by
  rw [takeTurn]
  cases hd : decode s.seqState p with
  | error e => exact ⟨_, rfl⟩
  | ok i =>
    by_cases hl : (s.launched || isReset i) = true
    · exact ⟨.reservedOp, by simp [runLaunched, hl, exec_of_isReserved (h i hd)]⟩
    · exact ⟨.beforeReset, by simp [runLaunched, hl]⟩

/-- Settles O4: an ill-formed word is none the encoder writes, so it decodes to RESERVED or not at
all. -/
theorem illFormedWordsAreRefused : Obligations.IllFormedWordsAreRefused := by
  refine ⟨fun s w v rest hs hbad => ?_, fun imm a c s => ⟨rfl, rfl, rfl⟩⟩
  rw [step_of_cons hs]
  refine takeTurn_refused fun i hd => ?_
  by_contra hr
  rw [Bool.not_eq_true] at hr
  obtain ⟨hop, himm, hshape⟩ := wellShaped_of_encode (encode_of_decode hd hr) hr
  rcases hbad with h | ⟨h0, h1, h6⟩ | h
  · omega
  · exact himm.elim h0 (Or.elim · h1 h6)
  · exact h hshape

end Sys2Proof.Machine
end

section
/-! SUPPORT. The bytes of the link: the checksum of a frame (30_encoding R82) and the responses on
TX_OUT (30_encoding R84). -/

namespace Sys2Proof.Machine

/-! ## The checksum -/

/-- Bytes added one after another give their sum modulo 256. -/
theorem toNat_foldl_add (l : List Byte) (b : Byte) :
    (l.foldl (· + ·) b).toNat = (b.toNat + (l.map BitVec.toNat).sum) % 256 := by
  induction l generalizing b with
  | nil => simp [Nat.mod_eq_of_lt b.isLt]
  | cons c l ih =>
    rw [List.foldl_cons, ih, BitVec.toNat_add, List.map_cons, List.sum_cons, Nat.mod_add_mod,
      Nat.add_assoc]

theorem toNat_checksum (p : Payload) :
    (checksum p).toNat = (p.toList.map BitVec.toNat).sum % 256 := by
  rw [checksum, toNat_foldl_add]
  simp

/-- A legal byte is at most 254. -/
theorem toNat_le_of_legalPayload {p : Payload} (h : LegalPayload p) (i : ServoIndex) :
    p[i].toNat ≤ 254 := by
  have := (h i).2
  bv_omega

theorem sum_le_of_legalPayload {p : Payload} (h : LegalPayload p) :
    (p.toList.map BitVec.toNat).sum ≤ 5334 := by
  have hbyte : ∀ n ∈ p.toList.map BitVec.toNat, n ≤ 254 := by
    simp only [List.forall_mem_map]
    intro b hb
    obtain ⟨i, hi, rfl⟩ := List.getElem_of_mem hb
    simpa using toNat_le_of_legalPayload h ⟨i, by simpa using hi⟩
  simpa using List.sum_le_card_nsmul _ 254 hbyte

theorem toList_eq_ofFn (p : Payload) : p.toList = List.ofFn fun i : ServoIndex => p[i] := by
  rw [← Vector.toList_ofFn]
  simp

/-- The checksum as a sum over the payload's positions. -/
theorem checksum_eq_sum (p : Payload) : checksum p = ∑ i : ServoIndex, p[i] := by
  rw [checksum, toList_eq_ofFn, ← List.sum_ofFn, List.sum_eq_foldl]
  rfl

/-- All but one term of the two sums agree, so the checksums differ as that term does. -/
theorem checksum_ne_of_ne {p q : Payload} {i : ServoIndex} (hi : p[i] ≠ q[i])
    (hk : ∀ k : ServoIndex, k ≠ i → p[k] = q[k]) : checksum p ≠ checksum q := by
  have hrest : ∑ k ∈ Finset.univ.erase i, p[k] = ∑ k ∈ Finset.univ.erase i, q[k] :=
    Finset.sum_congr rfl fun k hmem => hk k (Finset.ne_of_mem_erase hmem)
  rw [checksum_eq_sum, checksum_eq_sum, ← Finset.add_sum_erase _ _ (Finset.mem_univ i),
    ← Finset.add_sum_erase _ _ (Finset.mem_univ i), hrest]
  exact fun h => hi (add_right_cancel h)

/-- Settles O18. -/
theorem checksumIsTheSumModulo256 : Obligations.ChecksumIsTheSumModulo256 :=
  ⟨toNat_checksum, fun _ => sum_le_of_legalPayload, fun _ _ _ => checksum_ne_of_ne⟩

/-! ## TX_OUT -/

section
variable (s : State)

@[simp] theorem pushBytes_txOut (l : List Byte) : (pushBytes l s).txOut = s.txOut := by
  rw [(pushBytes_frame l s).1]

@[simp] theorem tickTo_txOut (cur : Angles) : (tickTo cur s).txOut = s.txOut := by
  obtain ⟨t, stopped, heq, hframe, -⟩ := tickTo_spec cur s
  rw [heq, setResult_txOut, hframe]

/-- TIME_TICK is silent, or sends NACK. -/
theorem countDown_txOut :
    (countDown s).txOut = s.txOut ∨ (countDown s).txOut = s.txOut ++ [NACK] := by
  rcases countDown_cases s with ⟨-, heq⟩ | ⟨-, heq⟩ <;> simp [heq]

/-- A judged checksum is silent, or answered with NACK. -/
theorem judgeFrame_txOut (c : Byte) (rest : List Byte) :
    (judgeFrame c rest s).txOut = s.txOut ∨ (judgeFrame c rest s).txOut = s.txOut ++ [NACK] := by
  rcases judgeFrame_cases c rest s with ⟨-, heq⟩ | ⟨-, -, heq⟩ | ⟨-, -, heq⟩ <;> simp [heq]

end

/-- Whatever the block does but RESET leaves TX_OUT as it is or sends one response. -/
theorem Effect.txOut_cases {s t : State} (h : Effect s t) :
    t.txOut = s.txOut ∨ t.txOut = s.txOut ++ [ACK] ∨ t.txOut = s.txOut ++ [NACK] ∨
      ∃ init : Angles, t = resetTo init s := by
  cases h with
  | reset init => exact .inr (.inr (.inr ⟨init, rfl⟩))
  | receive l => exact .inl (pushBytes_txOut s l)
  | count => exact (countDown_txOut s).imp_right fun h => .inr (.inl h)
  | tick cur => exact .inl (tickTo_txOut s cur)
  | checksum c rest => exact (judgeFrame_txOut s c rest).imp_right fun h => .inr (.inl h)
  | ack => exact .inr (.inl (acknowledge_txOut s))
  | endOfStream | requestCancel | answer | discard | sync | payload | close | publish | flush
  | arm | cancel => exact .inl rfl

/-- Settles O49, by what a step can do. -/
theorem onlyResponsesOnTxOut : Obligations.OnlyResponsesOnTxOut :=
  fun _ _ h => (step_effect h).txOut_cases

end Sys2Proof.Machine
end

section
/-! SUPPORT. The rows of the opcode table that name events (log 6, log 7, log 8): each is the block's
own step in which the event occurs. -/

namespace Sys2Proof.Machine

/-! ## Steps that take the byte at the head of RX_FIFO -/

/-- A step that takes the head byte where `e` enables it: the shape of the decoder's steps and of
the wire rows. -/
def onHead (s : State) (e : Byte → Bool) (f : Byte → List Byte → State) : Out :=
  match s.rxFifo with
  | [] => .refused .notEnabled
  | b :: rest => whenEnabled (e b) (f b rest)

section
variable (s : State) (b : Byte)

theorem exec_seqSync : exec .seqSync s =
    onHead s (fun c => reading .hunt s && c == SYNC) fun _ rest => takeSync rest s := rfl

theorem exec_seqHuntDiscard : exec .seqHuntDiscard s =
    onHead s (fun c => reading .hunt s && c != SYNC) fun _ rest => setFifo rest s := rfl

theorem exec_seqPayload : exec .seqPayload s =
    onHead s (fun _ => reading .payload s) fun c rest => takePayload c rest s := rfl

theorem exec_seqCsum : exec .seqCsum s =
    onHead s (fun _ => reading .csum s) fun c rest => judgeFrame c rest s := rfl

theorem exec_wireSync : exec .wireSync s = exec .seqSync s := rfl

theorem exec_wireGarbage : exec (.wireGarbage b) s =
    onHead s (fun c => reading .hunt s && c == b && c != SYNC) fun _ rest => setFifo rest s := rfl

theorem exec_wirePayload : exec (.wirePayload b) s =
    onHead s (fun c => reading .payload s && c == b) fun c rest => takePayload c rest s := rfl

theorem exec_wireChecksum : exec (.wireChecksum b) s =
    onHead s (fun c => reading .csum s && c == b) fun c rest => judgeFrame c rest s := rfl

end

section
variable {s t : State} {e e' : Byte → Bool} {f : Byte → List Byte → State}

theorem onHead_of_cons {b : Byte} {rest : List Byte} (hf : s.rxFifo = b :: rest)
    (he : e b = true) : onHead s e f = .next (f b rest) := by
  rw [onHead, hf]
  exact whenEnabled_next_iff.mpr ⟨he, rfl⟩

theorem onHead_next {u : State} (h : onHead s e f = .next u) :
    ∃ b rest, s.rxFifo = b :: rest ∧ e b = true ∧ u = f b rest := by
  rw [onHead] at h
  split at h
  · cases h
  · rename_i b rest hf
    exact ⟨b, rest, hf, whenEnabled_next_iff.mp h⟩

/-- A step enabled in fewer states does nothing else. -/
theorem onHead_mono (hle : ∀ b, e b = true → e' b = true) (h : onHead s e f = .next t) :
    onHead s e' f = .next t := by
  obtain ⟨b, rest, hf, he, rfl⟩ := onHead_next h
  exact onHead_of_cons hf (hle b he)

theorem reading_eq_true {q : SeqState} (hq : s.seqState = q) (hc : s.cancelLatch = false) :
    reading q s = true := by
  simp [reading, hq, hc]

@[simp] theorem judgeFrame_rxFifo (c : Byte) (rest : List Byte) (s : State) :
    (judgeFrame c rest s).rxFifo = rest := by
  rcases judgeFrame_cases c rest s with ⟨-, heq⟩ | ⟨-, -, heq⟩ | ⟨-, -, heq⟩ <;> simp [heq]

end

/-- Settles O52: each row and its SEQ step take the head byte the same way. -/
theorem wireBytesAreReadByState : Obligations.WireBytesAreReadByState := by
  intro s b rest hc hf
  refine ⟨fun hq hb => ?_, fun hq hb => ?_, fun hq => ?_, fun hq => ?_⟩ <;>
    have hr := reading_eq_true hq hc
  · have hstep : exec .seqSync s = .next (takeSync rest s) :=
      onHead_of_cons hf (by simp [hr, hb, SYNC])
    exact ⟨_, hstep, hstep, rfl, rfl, rfl, rfl⟩
  · exact ⟨_, onHead_of_cons hf (by simp [hr, hb, SYNC]),
      onHead_of_cons hf (by simp [hr, hb, SYNC]), rfl⟩
  · exact ⟨_, onHead_of_cons hf (by simp [hr]), onHead_of_cons hf hr, rfl, rfl⟩
  · exact ⟨_, onHead_of_cons hf (by simp [hr]), onHead_of_cons hf hr, judgeFrame_rxFifo b rest s⟩

/-! ## The responses -/

section
variable {s t : State}

theorem judgeFrame_of_mismatch {c : Byte} {rest : List Byte} (h : c ≠ s.rxSum) :
    judgeFrame c rest s = nackAndHunt .protocolError (setFifo rest s) := if_pos h

theorem judgeFrame_of_sentinel {c : Byte} {rest : List Byte} (hc : c = s.rxSum)
    (hs : hasSentinel s.frame = true) :
    judgeFrame c rest s = raiseFault .invalidArgument (setFifo rest s) :=
  (if_neg (not_not.mpr hc)).trans (if_pos hs)

theorem mismatchDue_iff : mismatchDue s = true ↔
    ∃ c rest, s.rxFifo = c :: rest ∧ reading .csum s = true ∧ c ≠ s.rxSum := by
  rw [mismatchDue]
  cases s.rxFifo with
  | nil => simp
  | cons c rest => simp

theorem sentinelDue_iff : sentinelDue s = true ↔ ∃ c rest, s.rxFifo = c :: rest ∧
    reading .csum s = true ∧ c = s.rxSum ∧ hasSentinel s.frame = true := by
  rw [sentinelDue]
  cases s.rxFifo with
  | nil => simp
  | cons c rest => simp [and_assoc, and_left_comm]

/-- A mismatch that is due is what SEQ_CSUM finds (40_frame_codec R114). -/
theorem exec_seqCsum_of_mismatchDue (h : mismatchDue s = true) :
    exec .seqCsum s = .next (nackAndHunt .protocolError (setFifo s.rxFifo.tail s)) := by
  obtain ⟨c, rest, hf, hr, hc⟩ := mismatchDue_iff.mp h
  rw [exec_seqCsum, onHead_of_cons hf hr, judgeFrame_of_mismatch hc, hf, List.tail_cons]

/-- A sentinel that is due is what SEQ_CSUM finds (40_frame_codec R114). -/
theorem exec_seqCsum_of_sentinelDue (h : sentinelDue s = true) :
    exec .seqCsum s = .next (raiseFault .invalidArgument (setFifo s.rxFifo.tail s)) := by
  obtain ⟨c, rest, hf, hr, hc, hs⟩ := sentinelDue_iff.mp h
  rw [exec_seqCsum, onHead_of_cons hf hr, judgeFrame_of_sentinel hc hs, hf, List.tail_cons]

/-- An expiry that is due is the next TIME_TICK's (43_handshake R203). -/
theorem exec_timeTick_of_expiryDue (h : expiryDue s = true) :
    exec .timeTick s = .next (setResult .none (countDown s)) := by
  rw [expiryDue, Bool.and_eq_true] at h
  rw [exec, execTimeTick, if_pos h.left]

/-- NACK on a mismatch is the step that finds it. -/
theorem exec_nack_of_mismatchDue (h : mismatchDue s = true) : exec .nack s = exec .seqCsum s := by
  rw [exec_seqCsum_of_mismatchDue h, exec, execNack, if_pos h]

/-- Without a mismatch NACK is the step that expires the wait. -/
theorem exec_nack_of_not_mismatchDue (h : mismatchDue s = false) :
    exec .nack s = whenEnabled (expiryDue s) (setResult .none (countDown s)) :=
  if_neg (Bool.eq_false_iff.mp h)

theorem seqState_of_mismatchDue (h : mismatchDue s = true) : s.seqState = .csum := by
  obtain ⟨-, -, -, hr, -⟩ := mismatchDue_iff.mp h
  exact seqState_of_reading hr

theorem countDown_of_timer_eq_one (h : s.timer = 1) :
    countDown s = nackAndHunt .settleTimeout { s with timer := 0 } := by
  rcases countDown_cases s with ⟨hne, -⟩ | ⟨-, heq⟩
  · omega
  · exact heq

end

/-- Settles O53: each response row as the step that sends the byte. -/
theorem responseRowsComplete : Obligations.ResponseRowsComplete := by
  intro s hc
  refine ⟨fun hq ha => ?_, fun c rest hq hf hne => ?_, fun hq ha ht => ?_⟩
  · have hdue : ackDue s = true := by simp [ackDue, hq, hc, ha]
    have hack : exec .seqAck s = .next (acknowledge s) := whenEnabled_next_iff.mpr ⟨hdue, rfl⟩
    exact ⟨_, hack, hack, acknowledge_txOut s⟩
  · have hdue : mismatchDue s = true :=
      mismatchDue_iff.mpr ⟨c, rest, hf, reading_eq_true hq hc, hne⟩
    have hcsum := exec_seqCsum_of_mismatchDue hdue
    exact ⟨_, (exec_nack_of_mismatchDue hdue).trans hcsum, hcsum, nackAndHunt_txOut _ _⟩
  · have hdue : expiryDue s = true := by simp [expiryDue, armedWait, hq, hc, ha, ht]
    have hnone : mismatchDue s = false :=
      Bool.eq_false_iff.mpr fun h => nomatch hq.symm.trans (seqState_of_mismatchDue h)
    refine ⟨_, ?_, exec_timeTick_of_expiryDue hdue, ?_⟩
    · rw [exec_nack_of_not_mismatchDue hnone]
      exact whenEnabled_next_iff.mpr ⟨hdue, rfl⟩
    · rw [setResult_txOut, countDown_of_timer_eq_one ht, nackAndHunt_txOut]
      rfl

/-! ## The drive codes -/

section
variable {s t : State}

theorem exec_tick {cur : Angles} (h : ∀ j : Joint, isAngleOf s.cfg.arith cur[j] = true) :
    exec (.tick cur) s = .next (tickTo cur s) :=
  withCheckedAngles_next_iff.mpr ⟨angleRefusal_none_iff.mpr h, rfl⟩

/-- A TICK leaves each joint the code its own angles give (42_joint_servo R161). -/
theorem tickTo_driveOut (cur : Angles) (s : State) (j : Joint) : (tickTo cur s).driveOut[j] =
    driveCode (jointEval cur s j).tier (jointEval cur s j).dir := by
  obtain ⟨t, stopped, heq, -, -, hdrive, -⟩ := tickTo_spec cur s
  rw [heq, setResult_driveOut, hdrive, if_pos j.isLt]

/-- The rows of the five codes of TICK, where some joint gets that code. -/
theorem tickEmitting_of_driveOut {d : DriveCode} {cur : Angles} {j : Joint}
    (h : ∀ j : Joint, isAngleOf s.cfg.arith cur[j] = true) (hd : (tickTo cur s).driveOut[j] = d) :
    tickEmitting d cur s = .next (tickTo cur s) := by
  have hmem : (tickTo cur s).driveOut.toList.contains d = true := by
    simp [← hd]
  exact withCheckedAngles_next_iff.mpr
    ⟨angleRefusal_none_iff.mpr h, whenEnabled_next_iff.mpr ⟨hmem, rfl⟩⟩

theorem driveBits_resetTo (init : Angles) (s : State) (j : Joint) :
    driveBits (resetTo init s).driveOut[j] = 0x0#4 := by
  simp [driveBits]

end

/-- Settles O55: a joint's own code is among those its TICK emits. -/
theorem driveRowsComplete : Obligations.DriveRowsComplete := by
  intro s v hv
  refine ⟨⟨_, exec_reset hv, exec_reset hv, driveBits_resetTo v s⟩, _, exec_tick hv, ?_⟩
  rintro j r rfl
  have hrow (d : DriveCode) (hd : driveCode (jointEval v s j).tier (jointEval v s j).dir = d) :
      tickEmitting d v s = .next (tickTo v s) :=
    tickEmitting_of_driveOut hv ((tickTo_driveOut v s j).trans hd)
  exact ⟨hrow .zero, hrow .softPos, hrow .softNeg, hrow .fullPos, hrow .fullNeg⟩

/-! ## No row adds a behaviour -/

section
variable {s t : State}

theorem exec_seqHuntDiscard_of_wireGarbage {g : Byte} (h : exec (.wireGarbage g) s = .next t) :
    exec .seqHuntDiscard s = .next t := by
  refine onHead_mono (fun c => ?_) h
  simp only [Bool.and_eq_true]
  exact And.imp_left And.left

theorem exec_seqPayload_of_wirePayload {p : Byte} (h : exec (.wirePayload p) s = .next t) :
    exec .seqPayload s = .next t :=
  onHead_mono (fun _ hc => (Bool.and_eq_true_iff.mp hc).left) h

theorem exec_seqCsum_of_wireChecksum {c : Byte} (h : exec (.wireChecksum c) s = .next t) :
    exec .seqCsum s = .next t :=
  onHead_mono (fun _ hc => (Bool.and_eq_true_iff.mp hc).left) h

/-- A row that is a TICK with some code emitted does what that TICK does. -/
theorem exec_tick_of_tickEmitting {d : DriveCode} {cur : Angles}
    (h : tickEmitting d cur s = .next t) : exec (.tick cur) s = .next t := by
  obtain ⟨hcheck, hemit⟩ := withCheckedAngles_next_iff.mp h
  obtain ⟨-, rfl⟩ := whenEnabled_next_iff.mp hemit
  exact withCheckedAngles_next_iff.mpr ⟨hcheck, rfl⟩

theorem exec_nack_next (h : exec .nack s = .next t) :
    exec .seqCsum s = .next t ∨ exec .timeTick s = .next t := by
  cases hm : mismatchDue s with
  | true => exact .inl ((exec_nack_of_mismatchDue hm).symm.trans h)
  | false =>
    rw [exec_nack_of_not_mismatchDue hm] at h
    obtain ⟨hdue, rfl⟩ := whenEnabled_next_iff.mp h
    exact .inr (exec_timeTick_of_expiryDue hdue)

/-- A byte received into a full RX_FIFO is lost, whichever it is (60_exceptions R227). -/
theorem exec_rxByte_of_overrunDue (b : Byte) (h : overrunDue s = true) : exec (.rxByte b) s =
    .next (setResult .none (recordCause .rxOverrun { s with rxOverrun := true })) := by
  simp only [overrunDue, Bool.and_eq_true, Bool.not_eq_true', decide_eq_true_eq] at h
  obtain ⟨heos, hfull⟩ := h
  simp [exec, execRxByte, heos, pushByte, hfull]

end

/-- Settles O57: each row with the operation or SEQ step in which its event occurs. -/
theorem eventRowsAddNoBehaviour : Obligations.EventRowsAddNoBehaviour := by
  intro i s t hrow hframe h
  cases i with
  | wireSync => exact ⟨.seqSync, rfl, h⟩
  | wireGarbage b => exact ⟨.seqHuntDiscard, rfl, exec_seqHuntDiscard_of_wireGarbage h⟩
  | wirePayload b => exact ⟨.seqPayload, rfl, exec_seqPayload_of_wirePayload h⟩
  | wireChecksum b => exact ⟨.seqCsum, rfl, exec_seqCsum_of_wireChecksum h⟩
  | frame p cs => exact absurd rfl (hframe p cs)
  | ack => exact ⟨.seqAck, rfl, h⟩
  | nack =>
    rcases exec_nack_next h with hstep | hstep
    · exact ⟨.seqCsum, rfl, hstep⟩
    · exact ⟨.timeTick, rfl, hstep⟩
  | driveZero cur | driveSoftPos cur | driveSoftNeg cur | driveFullPos cur | driveFullNeg cur =>
    exact ⟨.tick cur, rfl, exec_tick_of_tickEmitting h⟩
  | driveReset init | causeNone init => exact ⟨.reset init, rfl, h⟩
  | causeProtocolError =>
    obtain ⟨hdue, rfl⟩ := whenEnabled_next_iff.mp h
    exact ⟨.seqCsum, rfl, exec_seqCsum_of_mismatchDue hdue⟩
  | causeInvalidArgument =>
    obtain ⟨hdue, rfl⟩ := whenEnabled_next_iff.mp h
    exact ⟨.seqCsum, rfl, exec_seqCsum_of_sentinelDue hdue⟩
  | causeStreamClosed => exact ⟨.seqEos, rfl, h⟩
  | causeCancelled => exact ⟨.seqCancel, rfl, h⟩
  | causeSettleTimeout =>
    obtain ⟨hdue, rfl⟩ := whenEnabled_next_iff.mp h
    exact ⟨.timeTick, rfl, exec_timeTick_of_expiryDue hdue⟩
  | causeRxOverrun =>
    obtain ⟨hdue, rfl⟩ := whenEnabled_next_iff.mp h
    exact ⟨.rxByte 0x00#8, rfl, exec_rxByte_of_overrunDue _ hdue⟩
  | reserved9 imm | reservedAB imm low | reservedCF imm low => cases h
  | _ => cases hrow

end Sys2Proof.Machine
end

section
/-! SUPPORT. FRAME as its 23 bytes (30_encoding R81, R96). -/

namespace Sys2Proof.Machine

/-- SYNC first, then the payload, then the checksum byte. -/
theorem toList_frameBytes (p : Payload) (cs : Byte) :
    (frameBytes p cs).toList = 0xFF#8 :: p.toList ++ [cs] := by
  rw [frameBytes, Vector.toList_ofFn, List.ofFn_succ, List.ofFn_succ_last, toList_eq_ofFn]
  simp [SYNC]

theorem pushBytes_cons (b : Byte) (l : List Byte) (s : State) :
    pushBytes (b :: l) s = pushBytes l (pushByte b s) := rfl

@[simp] theorem pushByte_eosLatch (b : Byte) (s : State) :
    (pushByte b s).eosLatch = s.eosLatch := by
  rcases pushByte_cases b s with ⟨-, heq⟩ | ⟨-, heq⟩ <;> simp [heq]

/-- Receiving a byte does not look at the last operation's result. -/
theorem pushByte_setResult (r : OpResult) (b : Byte) (s : State) :
    pushByte b (setResult r s) = setResult r (pushByte b s) :=
  (apply_ite (setResult r) (s.rxFifo.length < s.cfg.rxFifoDepth) (setFifo (s.rxFifo ++ [b]) s)
    (recordCause .rxOverrun { s with rxOverrun := true })).symm

theorem pushBytes_setResult (r : OpResult) (l : List Byte) (s : State) :
    pushBytes l (setResult r s) = setResult r (pushBytes l s) := by
  induction l generalizing s with
  | nil => rfl
  | cons b l ih => rw [pushBytes_cons, pushByte_setResult, ih, pushBytes_cons]

/-- While there is room, every byte is queued. -/
theorem pushBytes_of_room {l : List Byte} {s : State}
    (h : s.rxFifo.length + l.length ≤ s.cfg.rxFifoDepth) :
    pushBytes l s = setFifo (s.rxFifo ++ l) s := by
  induction l generalizing s with
  | nil => rw [List.append_nil]; rfl
  | cons b l ih =>
    rw [List.length_cons] at h
    have hpush : pushByte b s = setFifo (s.rxFifo ++ [b]) s := if_pos (by omega)
    rw [pushBytes_cons, hpush, ih (by simp; omega), setFifo_rxFifo, List.append_assoc]
    rfl

theorem exec_rxByte {s : State} (h : s.eosLatch = false) (b : Byte) :
    exec (.rxByte b) s = .next (setResult .none (pushByte b s)) := by
  rw [exec, execRxByte, h, if_neg Bool.false_ne_true]

theorem execAll_cons_next {i : Instr} {s t : State} (h : exec i s = .next t) (is : List Instr) :
    execAll (i :: is) s = execAll is t := by
  rw [execAll, h]

/-- RX_BYTEs one after another; only the last one's result is seen. -/
theorem execAll_rxByte {s : State} (h : s.eosLatch = false) (b : Byte) (l : List Byte) :
    execAll (.rxByte b :: l.map .rxByte) s
      = .next (setResult .none (pushBytes (b :: l) s)) := by
  induction l generalizing s b with
  | nil => exact execAll_cons_next (exec_rxByte h b) []
  | cons c l ih =>
    rw [execAll_cons_next (exec_rxByte h b), List.map_cons, ih (by simpa using h),
      pushBytes_setResult, pushBytes_cons b]
    rfl

theorem exec_frame {s : State} (h : s.eosLatch = false) (p : Payload) (cs : Byte) :
    exec (.frame p cs) s
      = .next (setResult .none (pushBytes (0xFF#8 :: p.toList ++ [cs]) s)) := by
  rw [exec, execFrame, h, if_neg Bool.false_ne_true, toList_frameBytes, pushBytes]

/-- Settles O56: before RX_EOS both sides receive the same 23 bytes; after it both are refused. -/
theorem frameIsTwentyThreeRxBytes : Obligations.FrameIsTwentyThreeRxBytes := by
  intro s p cs
  refine ⟨?_, fun h => ⟨_, exec_frame h p cs⟩, fun h hroom => ?_⟩
  · cases h : s.eosLatch with
    | false =>
      rw [exec_frame h, List.cons_append, ← execAll_rxByte h, List.map_append]
      rfl
    | true => simp [exec, execFrame, execAll, execRxByte, h]
  · rw [exec_frame h, pushBytes_of_room (by simp; omega)]
    rfl

end Sys2Proof.Machine
end

section
/-! SUPPORT. The frame codec (40_frame_codec): byte input, the decoder's steps one by one, ENCODE,
and a whole frame from its delivery to its judgement. -/

namespace Sys2Proof.Machine

open Laws.Encoding (frameBytes_sync frameBytes_payload frameBytes_checksum)

/-! ## Byte input and the latches (R110, R115) -/

/-- Settles O11: RX_BYTE is `pushByte`, which looks for room. -/
theorem rxByteQueuesOrOverruns : Obligations.RxByteQueuesOrOverruns := by
  refine fun s b => ⟨fun heos hroom => ?_, fun heos hfull => ?_, fun heos => ?_⟩
  · have hpush : pushByte b s = setFifo (s.rxFifo ++ [b]) s := if_pos hroom
    rw [exec_rxByte heos, hpush]
    rfl
  · exact exec_rxByte_of_overrunDue b (by simp [overrunDue, heos, hfull])
  · exact if_pos heos

/-- Settles O12. -/
theorem endOfStreamAndCancelSetTheirLatch : Obligations.EndOfStreamAndCancelSetTheirLatch :=
  fun _ => ⟨rfl, rfl⟩

/-! ## The decoder's steps (R111 to R114, R116) -/

section
variable {s : State} {b : Byte} {rest : List Byte}

theorem exec_seqSync_next (hq : s.seqState = .hunt) (hc : s.cancelLatch = false)
    (hf : s.rxFifo = SYNC :: rest) : exec .seqSync s = .next (takeSync rest s) :=
  onHead_of_cons hf (by simp [reading_eq_true hq hc])

theorem exec_seqHuntDiscard_next (hq : s.seqState = .hunt) (hc : s.cancelLatch = false)
    (hf : s.rxFifo = b :: rest) (hb : b ≠ SYNC) :
    exec .seqHuntDiscard s = .next (setFifo rest s) :=
  onHead_of_cons hf (by simp [reading_eq_true hq hc, hb])

theorem exec_seqPayload_next (hq : s.seqState = .payload) (hc : s.cancelLatch = false)
    (hf : s.rxFifo = b :: rest) : exec .seqPayload s = .next (takePayload b rest s) :=
  onHead_of_cons hf (reading_eq_true hq hc)

theorem exec_seqCsum_next (hq : s.seqState = .csum) (hc : s.cancelLatch = false)
    (hf : s.rxFifo = b :: rest) : exec .seqCsum s = .next (judgeFrame b rest s) :=
  onHead_of_cons hf (reading_eq_true hq hc)

/-- `FRAME[RX_IDX] <- b` read back. -/
theorem getElem_storeFrame (b : Byte) (s : State) (i : ServoIndex) :
    (storeFrame b s)[i] = if i.val = s.rxIdx.toNat then b else s.frame[i] := by
  simp [storeFrame, Vector.getElem_setIfInBounds, eq_comm]

theorem judgeFrame_of_legal (hb : b = s.rxSum) (hlegal : LegalPayload s.frame) :
    judgeFrame b rest s = setSeq .publish (setFifo rest s) := by
  have hclean := (hasSentinel_eq_false_iff s.frame).mpr hlegal
  rcases judgeFrame_cases b rest s with ⟨hne, -⟩ | ⟨-, hs, -⟩ | ⟨-, -, heq⟩
  · exact absurd hb hne
  · rw [hclean] at hs; cases hs
  · exact heq

end

/-- Settles O13. -/
theorem huntDiscardsUntilSync : Obligations.HuntDiscardsUntilSync := by
  refine fun s b rest hq hc hf => ⟨fun hb => exec_seqHuntDiscard_next hq hc hf hb, fun hb => ?_⟩
  subst hb
  exact exec_seqSync_next hq hc hf

/-- Settles O14: RX_IDX does not wrap below 21. -/
theorem payloadByteIsStoredAndSummed : Obligations.PayloadByteIsStoredAndSummed := by
  intro s b rest hq hc hf hidx
  refine ⟨_, exec_seqPayload_next hq hc hf, getElem_storeFrame b s, BitVec.toNat_add _ _, ?_, ?_,
    rfl⟩
  · rw [takePayload_rxIdx]; bv_omega
  · have hlast : s.rxIdx + 1#5 = 21#5 ↔ s.rxIdx.toNat = 20 := by bv_omega
    simp only [takePayload_seqState, hlast, hq]

/-- Settles O15, by what the judgement of a checksum depends on. -/
theorem checksumIsJudgedFirst : Obligations.ChecksumIsJudgedFirst := by
  intro s c rest hq hc hf
  rw [exec_seqCsum_next hq hc hf]
  refine ⟨fun hne => ?_, fun heq hbad => ?_, fun heq hlegal => ?_⟩
  · rw [judgeFrame_of_mismatch hne]; rfl
  · rw [← hasSentinel_eq_false_iff, Bool.not_eq_false] at hbad
    rw [judgeFrame_of_sentinel heq hbad]; rfl
  · rw [judgeFrame_of_legal heq hlegal]; rfl

/-- Settles O16, by the conditions that enable SEQ_EOS and SEQ_CANCEL. -/
theorem endOfStreamAndCancelTerminate : Obligations.EndOfStreamAndCancelTerminate := by
  refine fun s => ⟨fun hq hc heos hf => ?_, fun hq hc => ?_⟩
  · have hdue : eosDue s = true := by simp [eosDue, isReadState, hc, heos, hf, or_assoc, hq]
    exact whenEnabled_next_iff.mpr ⟨hdue, rfl⟩
  · have hdue : cancelDue s = true := by simp [cancelDue, isReadState, hc, or_assoc, hq]
    exact whenEnabled_next_iff.mpr ⟨hdue, rfl⟩

/-! ## ENCODE (R117) -/

theorem getElem_frameBytes_payload (p : Payload) (cs : Byte) (i : ServoIndex) :
    (frameBytes p cs)[i.val + 1] = p[i] := by
  conv_rhs => rw [← frameBytes_payload p cs]
  simp

theorem isSentinel_iff (b : Byte) : isSentinel b = true ↔ b = 0x00#8 ∨ b = 0xFF#8 := by
  simp [isSentinel]

/-- A legal payload has no sentinel to find. -/
theorem encodeResult_of_legal {p : Payload} (h : LegalPayload p) :
    encodeResult p = .encoded (frameBytes p (checksum p)) := by
  have hnone : p.toList.findIdx? isSentinel = none := by
    rw [← Option.isNone_iff_eq_none, ← Option.not_isSome, List.findIdx?_isSome, ← hasSentinel,
      (hasSentinel_eq_false_iff p).mpr h, Bool.not_false]
  rw [encodeResult, hnone]

/-- In any other the search finds the least index of one. -/
theorem encodeResult_of_illegal {p : Payload} (h : ¬ LegalPayload p) :
    ∃ k : ServoIndex, encodeResult p = .invalidArgument k.val ∧ isSentinel p[k] = true ∧
      ∀ i : ServoIndex, i < k → isSentinel p[i] = false := by
  rw [← hasSentinel_eq_false_iff, Bool.not_eq_false, hasSentinel, ← List.findIdx?_isSome] at h
  obtain ⟨k, hk⟩ := Option.isSome_iff_exists.mp h
  obtain ⟨hlt, hfound, hleast⟩ := List.findIdx?_eq_some_iff_getElem.mp hk
  refine ⟨⟨k, by simpa using hlt⟩, by rw [encodeResult, hk], by simpa using hfound, ?_⟩
  intro i hi
  simpa using hleast i.val hi

/-- Settles O17, by what the search for a sentinel finds. -/
theorem encodeBuildsTheFrame : Obligations.EncodeBuildsTheFrame := by
  refine fun s p => ⟨fun h => ⟨frameBytes p (checksum p), ?_, frameBytes_sync p _,
    getElem_frameBytes_payload p _, ?_⟩, fun h => ?_⟩
  · rw [← encodeResult_of_legal h]
    rfl
  · rw [frameBytes_checksum, toNat_checksum]
  · obtain ⟨k, hresult, hfound, hleast⟩ := encodeResult_of_illegal h
    refine ⟨k, by rw [← hresult]; rfl, (isSentinel_iff _).mp hfound, fun i hi => ?_⟩
    rw [← not_or, ← isSentinel_iff, hleast i hi]
    exact Bool.false_ne_true

/-! ## The SEQ agent in the reading states -/

section
variable {s : State} {b : Byte} {rest : List Byte}

theorem seqMove_sync (hl : s.launched = true) (hq : s.seqState = .hunt)
    (hc : s.cancelLatch = false) (hf : s.rxFifo = SYNC :: rest) :
    seqMove s = .next (takeSync rest s) :=
  (seqMove_of_enabled (k := .sync) hl (by simp [enabledStep, hq, hc, hf])).trans
    (exec_seqSync_next hq hc hf)

theorem seqMove_payload (hl : s.launched = true) (hq : s.seqState = .payload)
    (hc : s.cancelLatch = false) (hf : s.rxFifo = b :: rest) :
    seqMove s = .next (takePayload b rest s) :=
  (seqMove_of_enabled (k := .payload) hl (by simp [enabledStep, hq, hc, hf])).trans
    (exec_seqPayload_next hq hc hf)

theorem seqMove_csum (hl : s.launched = true) (hq : s.seqState = .csum)
    (hc : s.cancelLatch = false) (hf : s.rxFifo = b :: rest) :
    seqMove s = .next (judgeFrame b rest s) :=
  (seqMove_of_enabled (k := .csum) hl (by simp [enabledStep, hq, hc, hf])).trans
    (exec_seqCsum_next hq hc hf)

end

theorem repeatStep_succ {f : State → Out} {s t : State} (h : f s = .next t) (n : Nat) :
    repeatStep f (n + 1) s = repeatStep f n t := by
  rw [repeatStep, h]

/-- A run goes on from where its first `m` steps lead. -/
theorem repeatStep_add {f : State → Out} {m : Nat} {s t : State}
    (h : repeatStep f m s = .next t) (n : Nat) : repeatStep f (m + n) s = repeatStep f n t := by
  induction m generalizing s with
  | zero =>
    cases h
    rw [Nat.zero_add]
  | succ m ih =>
    rw [Nat.add_right_comm]
    cases hs : f s with
    | next u =>
      rw [repeatStep_succ hs] at h ⊢
      exact ih h
    | fault r => rw [repeatStep, hs] at h; cases h
    | refused r => rw [repeatStep, hs] at h; cases h

/-! ## A whole frame -/

/-- The payload `q` over the contents of FRAME, its first `n` bytes stored. -/
def storedPrefix (q old : Payload) (n : Nat) : Payload :=
  Vector.ofFn fun i => if i.val < n then q[i] else old[i]

/-- The block `s` in the middle of a frame of the payload `q` and the checksum byte `cs`: SYNC and
`n` payload bytes are taken, the rest of the frame is in RX_FIFO. -/
def midFrame (q : Payload) (cs : Byte) (n : Nat) (s : State) : State :=
  { s with
    seqState := if n = 21 then .csum else .payload
    rxIdx := BitVec.ofNat 5 n
    rxSum := partialSum q n
    frame := storedPrefix q s.frame n
    rxFifo := q.toList.drop n ++ [cs] }

@[simp] theorem storedPrefix_zero (q old : Payload) : storedPrefix q old 0 = old :=
  Vector.ext fun i hi => by simp [storedPrefix]

@[simp] theorem storedPrefix_length (q old : Payload) : storedPrefix q old 21 = q :=
  Vector.ext fun i hi => by simp [storedPrefix]

/-- One more byte is stored. -/
theorem setIfInBounds_storedPrefix (q old : Payload) (n : ServoIndex) :
    (storedPrefix q old n.val).setIfInBounds n.val q[n] = storedPrefix q old (n.val + 1) := by
  refine Vector.ext fun i hi => ?_
  rw [Vector.getElem_setIfInBounds, storedPrefix, storedPrefix, Vector.getElem_ofFn,
    Vector.getElem_ofFn]
  rcases lt_trichotomy n.val i with h | rfl | h
  · rw [if_neg h.ne, if_neg h.not_gt, if_neg (Nat.not_lt.mpr h)]
  · rw [if_pos rfl, if_pos (Nat.lt_succ_self _)]
  · rw [if_neg h.ne', if_pos h, if_pos (Nat.lt_succ_of_lt h)]

theorem partialSum_succ (q : Payload) (n : ServoIndex) :
    partialSum q (n.val + 1) = partialSum q n.val + q[n] := by
  simp [partialSum, List.take_add_one, List.foldl_append]

section
variable {q : Payload} {cs : Byte} {s : State}

theorem takeSync_eq_midFrame : takeSync (q.toList ++ [cs]) s = midFrame q cs 0 s := by
  simp [takeSync, midFrame, setSeq]

theorem storeFrame_midFrame (n : ServoIndex) :
    storeFrame q[n] (midFrame q cs n.val s) = storedPrefix q s.frame (n.val + 1) := by
  have hidx : (midFrame q cs n.val s).rxIdx.toNat = n.val := Nat.mod_eq_of_lt (by omega)
  rw [storeFrame, hidx]
  exact setIfInBounds_storedPrefix q s.frame n

/-- One payload byte more. -/
theorem takePayload_midFrame (n : ServoIndex) :
    takePayload q[n] (q.toList.drop (n.val + 1) ++ [cs]) (midFrame q cs n.val s)
      = midFrame q cs (n.val + 1) s := by
  have hidx : BitVec.ofNat 5 n.val + 1#5 = BitVec.ofNat 5 (n.val + 1) := BitVec.ofNat_add_ofNat ..
  have hlast : BitVec.ofNat 5 (n.val + 1) = 21#5 ↔ n.val + 1 = 21 := by bv_omega
  have hseq : (midFrame q cs n.val s).seqState = .payload := if_neg n.isLt.ne
  rw [takePayload, storeFrame_midFrame, hseq]
  simp only [midFrame, hidx, hlast, partialSum_succ]

/-- The SEQ agent takes the next payload byte. -/
theorem seqMove_midFrame (hl : s.launched = true) (hc : s.cancelLatch = false) (n : ServoIndex) :
    seqMove (midFrame q cs n.val s) = .next (midFrame q cs (n.val + 1) s) := by
  have hf : (midFrame q cs n.val s).rxFifo = q[n] :: (q.toList.drop (n.val + 1) ++ [cs]) := by
    rw [midFrame, List.drop_eq_getElem_cons (by simp)]
    simp
  have hq : (midFrame q cs n.val s).seqState = .payload := if_neg n.isLt.ne
  rw [seqMove_payload (s := midFrame q cs n.val s) hl hq hc hf, takePayload_midFrame]

theorem repeatStep_midFrame (hl : s.launched = true) (hc : s.cancelLatch = false) {n : Nat}
    (hn : n ≤ 21) : repeatStep seqMove n (midFrame q cs 0 s) = .next (midFrame q cs n s) := by
  induction n with
  | zero => rfl
  | succ n ih =>
    rw [repeatStep_add (ih (by omega)), repeatStep_succ (seqMove_midFrame hl hc ⟨n, hn⟩)]
    rfl

/-- The SEQ agent judges a frame whose payload is taken. -/
theorem seqMove_midFrame_length (hl : s.launched = true) (hc : s.cancelLatch = false) :
    seqMove (midFrame q cs 21 s) = .next (judgeFrame cs [] (midFrame q cs 21 s)) :=
  seqMove_csum (s := midFrame q cs 21 s) hl rfl hc (by simp [midFrame])

/-- A frame is queued whole where there is room for it. -/
theorem exec_frame_of_room (heos : s.eosLatch = false) (hf : s.rxFifo = [])
    (hroom : 23 ≤ s.cfg.rxFifoDepth) : exec (.frame q cs) s
      = .next (setFifo (SYNC :: (q.toList ++ [cs])) (setResult .none s)) := by
  rw [exec_frame heos, pushBytes_of_room (by simpa [hf] using hroom), hf]
  rfl

/-- Of a frame in RX_FIFO a hunting block takes SYNC and the payload by 22 moves of the SEQ agent,
and judges it by the 23rd. -/
theorem repeatStep_frame (hl : s.launched = true) (hq : s.seqState = .hunt)
    (hc : s.cancelLatch = false) : repeatStep seqMove 23 (setFifo (SYNC :: (q.toList ++ [cs])) s)
      = .next (judgeFrame cs [] (midFrame q cs 21 s)) := by
  have hsync : seqMove (setFifo (SYNC :: (q.toList ++ [cs])) s) = .next (midFrame q cs 0 s) := by
    rw [← takeSync_eq_midFrame]
    exact seqMove_sync (s := setFifo _ s) hl hq hc rfl
  rw [repeatStep_succ hsync, repeatStep_add (repeatStep_midFrame hl hc le_rfl) 1,
    repeatStep_succ (seqMove_midFrame_length hl hc)]
  rfl

@[simp] theorem midFrame_rxSum_length : (midFrame q cs 21 s).rxSum = checksum q :=
  partialSum_length q

@[simp] theorem midFrame_frame_length : (midFrame q cs 21 s).frame = q :=
  storedPrefix_length q s.frame

end

/-- Settles O19: FRAME is the payload, and RX_SUM the checksum delivered with it. -/
theorem encodedFrameIsAccepted : Obligations.EncodedFrameIsAccepted := by
  intro s p hlegal hl hq hf hc heos hroom
  have hrun := repeatStep_frame (q := p) (cs := checksum p) (s := setResult .none s) hl hq hc
  rw [judgeFrame_of_legal midFrame_rxSum_length.symm (by rwa [midFrame_frame_length])] at hrun
  exact ⟨_, _, exec_frame_of_room heos hf hroom, hrun, rfl, fun i => by simp, rfl, rfl, rfl, rfl⟩

/-- Settles O20: in both cases RX_SUM, the payload's checksum, is not the byte delivered. -/
theorem corruptedFrameIsNacked : Obligations.CorruptedFrameIsNacked := by
  intro s p q cs _ hcorrupt hl hq hf hc heos hroom
  have hne : cs ≠ checksum q := by
    rcases hcorrupt with ⟨⟨i, hi, hk⟩, rfl⟩ | ⟨rfl, hcs⟩
    · exact checksum_ne_of_ne hi hk
    · exact hcs
  have hrun := repeatStep_frame (q := q) (cs := cs) (s := setResult .none s) hl hq hc
  rw [judgeFrame_of_mismatch (by rwa [midFrame_rxSum_length])] at hrun
  exact ⟨_, _, exec_frame_of_room heos hf hroom, hrun, rfl, rfl, rfl, rfl, rfl⟩

end Sys2Proof.Machine
end

section
/-! SUPPORT. The angle engine in exact arithmetic, as real numbers (41_angle_engine R140 to R149),
CONVERT (R150 to R153), and that TARGET and ZERO stay numbers. -/

namespace Sys2Proof.Machine

/-! ## mod2pi (R140, R141) -/

theorem exists_val_of_isNumber {x : Angle} (hx : isNumber x = true) : ∃ r p o, x = .val r p o := by
  cases x with
  | val r p o => exact ⟨r, p, o, rfl⟩
  | inf a => cases hx
  | nan => cases hx

/-- Whole turns added to an angle stand in its multiple of π. -/
theorem add_turns_val (n : Int) (r p : Rat) (o : List Int) :
    add .exact (.val r p o) (mulInt .exact n (turn .exact)) = .val r (p + 2 * n) o := by
  simp [add, mulInt, turn, rnd, rawAdd, rawMulInt, mul_comm]

/-- `mod2pi` takes the whole turns off the multiple of π and keeps the other coefficients. -/
theorem mod2pi_val (r p : Rat) (o : List Int) : mod2pi .exact (.val r p o) =
    .val r (p + 2 * (-⌊valReal r p o / (2 * Real.pi)⌋ : Int)) o := by
  rw [mod2pi, floorTurn_exact_real rfl]
  simp [sub, mulInt, turn, rnd, rawAdd, rawMulInt, negAngle, mul_comm]

theorem valReal_add_turns (n : Int) (r p : Rat) (o : List Int) :
    valReal r (p + 2 * n) o = valReal r p o + n * (2 * Real.pi) := by
  simp [valReal]; ring

/-- Angles whole turns apart, with the same other coefficients, are reduced to the same angle. -/
theorem mod2pi_add_turns (n : Int) (r p : Rat) (o : List Int) :
    mod2pi .exact (.val r (p + 2 * n) o) = mod2pi .exact (.val r p o) := by
  have hfloor : ⌊valReal r (p + 2 * n) o / (2 * Real.pi)⌋
      = ⌊valReal r p o / (2 * Real.pi)⌋ + n := by
    rw [valReal_add_turns, add_div, mul_div_cancel_right₀ _ Real.two_pi_pos.ne',
      Int.floor_add_intCast]
  rw [mod2pi_val, mod2pi_val, hfloor]
  congr 1
  push_cast
  ring

theorem angleReal_mod2pi {x : Angle} (hx : isNumber x = true) :
    angleReal (mod2pi .exact x) = reduced (angleReal x) := by
  obtain ⟨-, -, -, n, hn, heq⟩ := mod2pi_exact_real hx
  rw [floorTurn_exact_real hx, Option.some_inj] at hn
  rw [heq, ← hn, reduced]

/-- Settles O22: in each of the three equations of R141 the two arguments are whole turns apart. -/
theorem mod2piReducesToOneTurn : Obligations.Mod2piReducesToOneTurn := by
  refine ⟨fun x hx => ?_, fun x k hx => ?_, fun a b ha hb => ?_⟩
  · obtain ⟨-, hlo, hhi, -⟩ := mod2pi_exact_real hx
    refine ⟨angleReal_mod2pi hx, hlo, hhi, ?_⟩
    obtain ⟨r, p, o, rfl⟩ := exists_val_of_isNumber hx
    rw [mod2pi_val r p o, mod2pi_add_turns, mod2pi_val]
  · obtain ⟨r, p, o, rfl⟩ := exists_val_of_isNumber hx
    rw [add_turns_val, mod2pi_add_turns]
  · obtain ⟨r, p, o, rfl⟩ := exists_val_of_isNumber ha
    obtain ⟨r', p', o', rfl⟩ := exists_val_of_isNumber hb
    rw [mod2pi_val r' p' o']
    simp only [add, rnd, rawAdd, ← add_assoc, mod2pi_add_turns]

/-! ## The resolved difference (R144, R145) -/

theorem gtAngle_pi_iff {x : Angle} (hx : isNumber x = true) :
    gtAngle x (piAngle .exact) = true ↔ Real.pi < angleReal x := by
  rw [gtAngle_iff hx (y := piAngle .exact) rfl, piAngle_exact_real]

/-- A difference of less than a turn is at most half a turn once it is resolved. -/
theorem abs_shortest_le {c t : ℝ} (h : |c - t| < 2 * Real.pi) : |shortest c t| ≤ Real.pi := by
  rw [abs_lt] at h
  rw [shortest, abs_le]
  split_ifs <;> constructor <;> linarith

/-- The two tests in sequence (R144) give the difference by case (R145): after a turn added to the
target by the first, the second takes none off. -/
theorem resolve_exact_real {c t : Angle} (hc : isNumber c = true) (ht : isNumber t = true) :
    isNumber (resolve .exact c t) = true ∧
      angleReal (resolve .exact c t) = shortest (angleReal c) (angleReal t) := by
  have hpi := Real.pi_pos
  have hd := sub_exact_real hc ht
  have hup := add_exact_real (y := turn .exact) ht rfl
  have hdown := sub_exact_real (y := turn .exact) ht rfl
  rw [turn_exact_real] at hup hdown
  simp only [resolve, gtAngle_pi_iff hd.1, hd.2, shortest]
  by_cases hfirst : Real.pi < angleReal c - angleReal t
  · have hback := sub_exact_real hup.1 hc
    have hno : ¬ Real.pi < angleReal t + 2 * Real.pi - angleReal c := by linarith
    have hres := sub_exact_real hc hup.1
    simp only [if_pos hfirst, gtAngle_pi_iff hback.1, hback.2, hup.2, if_neg hno]
    exact ⟨hres.1, by rw [hres.2, hup.2]; ring⟩
  · have hback := sub_exact_real ht hc
    have hiff : Real.pi < angleReal t - angleReal c ↔ angleReal c - angleReal t < -Real.pi := by
      constructor <;> intro h <;> linarith
    simp only [if_neg hfirst, gtAngle_pi_iff hback.1, hback.2, hiff]
    split_ifs
    · have hres := sub_exact_real hc hdown.1
      exact ⟨hres.1, by rw [hres.2, hdown.2]; ring⟩
    · exact hd

/-- Settles O23: `shortest` is the statement's case distinction. -/
theorem resolvedDifferenceByCase : Obligations.ResolvedDifferenceByCase := by
  intro c t hc ht hc0 hc1 ht0 ht1
  have heq := (resolve_exact_real hc ht).2
  have hlt : |angleReal c - angleReal t| < 2 * Real.pi := abs_lt.mpr ⟨by linarith, by linarith⟩
  exact ⟨heq, heq ▸ abs_shortest_le hlt⟩

/-! ## Tier, direction and the settled flag (R146 to R149) -/

section
variable {x : Angle}

theorem classify_exact (hx : isNumber x = true) : classify .exact x =
    if angleReal x < Real.pi / 100 then .zero
    else if angleReal x < Real.pi / 80 then .soft else .full := by
  simp only [classify, ltAngle_iff hx (y := tier1 .exact) rfl, tier1_exact_real,
    ltAngle_iff hx (y := tier2 .exact) rfl, tier2_exact_real]

theorem gtAngle_zero_iff (hx : isNumber x = true) : gtAngle x .zero = true ↔ 0 < angleReal x := by
  rw [gtAngle_iff hx rfl, angleReal_zero]

theorem ltAngle_zero_iff (hx : isNumber x = true) : ltAngle x .zero = true ↔ angleReal x < 0 := by
  rw [ltAngle_iff hx rfl, angleReal_zero]

theorem direction_soft (hx : isNumber x = true) (h0 : angleReal x ≠ 0) :
    direction .soft x = if 0 < angleReal x then .pos else .neg := by
  simp only [direction, gtAngle_zero_iff hx, ltAngle_zero_iff hx]
  rcases lt_or_gt_of_ne h0 with h | h <;> simp [h, h.not_gt]

theorem direction_full (hx : isNumber x = true) (h0 : angleReal x ≠ 0) :
    direction .full x = if 0 < angleReal x then .neg else .pos := by
  simp only [direction, gtAngle_zero_iff hx, ltAngle_zero_iff hx]
  rcases lt_or_gt_of_ne h0 with h | h <;> simp [h, h.not_gt]

end

section
variable {cur zero target : Angle}

theorem angleEval_diff_real (hcur : isNumber cur = true) (hzero : isNumber zero = true)
    (htarget : isNumber target = true) :
    isNumber (angleEval .exact cur zero target).diff = true ∧
      angleReal (angleEval .exact cur zero target).diff =
        shortest (reduced (angleReal cur)) (reduced (angleReal zero + angleReal target)) := by
  have hsum := add_exact_real hzero htarget
  have hres := resolve_exact_real (mod2pi_exact_real hcur).1 (mod2pi_exact_real hsum.1).1
  rw [angleReal_mod2pi hcur, angleReal_mod2pi hsum.1, hsum.2] at hres
  exact hres

theorem angleEval_dir (k : ArithKind) : (angleEval k cur zero target).dir =
    direction (angleEval k cur zero target).tier (angleEval k cur zero target).diff := rfl

theorem angleEval_settled (k : ArithKind) : (angleEval k cur zero target).settled = true ↔
    (angleEval k cur zero target).tier ≠ .full := decide_eq_true_iff

/-- The tier is that of the size of the difference. -/
theorem angleEval_tier (hd : isNumber (angleEval .exact cur zero target).diff = true) :
    (angleEval .exact cur zero target).tier =
      if |angleReal (angleEval .exact cur zero target).diff| < Real.pi / 100 then .zero
      else if |angleReal (angleEval .exact cur zero target).diff| < Real.pi / 80 then .soft
      else .full := by
  have habs := (isNumber_abs (angleEval .exact cur zero target).diff).trans hd
  rw [← angleReal_abs]
  exact classify_exact habs

end

/-- Settles O24: in each of the three tiers, the direction by the sign of the difference. -/
theorem tierDirectionAndSettled : Obligations.TierDirectionAndSettled := by
  refine ⟨fun _ _ _ _ => rfl, fun cur zero target hcur hzero htarget d hd => ?_⟩
  obtain ⟨hnum, hdiff⟩ := angleEval_diff_real hcur hzero htarget
  rw [← hd] at hdiff
  have htier := angleEval_tier hnum
  have hpi := Real.pi_pos
  rw [hdiff] at htier
  simp only [angleEval_settled, angleEval_dir, hdiff, true_and]
  rcases lt_or_ge |d| (Real.pi / 100) with h1 | h1
  · have h2 : |d| < Real.pi / 80 := by linarith
    rw [if_pos h1] at htier
    simp [htier, h1, h2, h1.not_ge, h2.not_ge, direction]
  · have h0 : angleReal (angleEval .exact cur zero target).diff ≠ 0 := by
      rw [hdiff, ← abs_pos]
      linarith
    rw [if_neg h1.not_gt] at htier
    rcases lt_or_ge |d| (Real.pi / 80) with h2 | h2
    · rw [if_pos h2] at htier
      simp [htier, h1, h2, h1.not_gt, h2.not_ge, direction_soft hnum h0, hdiff]
    · rw [if_neg h2.not_gt] at htier
      simp [htier, h1.not_gt, h2, h2.not_gt, direction_full hnum h0, hdiff]

/-! ## The reference CONVERT (R150 to R153) -/

section
variable {c : Config} {art : Art}

theorem convert_real (leg : Leg) (v : Byte) (href : c.converter = .reference)
    (hk : c.arith = .exact) (ho : isNumber (perArt c.offset art) = true) :
    angleReal (convert c leg art v) =
      (signInt (perArt c.sign art) : ℝ) *
          (if isMirrored c leg = true then 254 - (v.toNat : ℝ) else (v.toNat : ℝ)) *
          (Real.pi / 256) +
        (angleReal (perArt c.offset art) +
          if isMirrored c leg = true ∧ art = .shoulder then Real.pi else 0) := by
  have hstep := fun n : Int => mulInt_exact_real n (x := stepAngle .exact) rfl
  have hpi := add_exact_real (y := piAngle .exact) ho rfl
  rw [piAngle_exact_real] at hpi
  rw [convert_reference c leg art v href, convertReference, hk]
  have hoff : isNumber (if isMirrored c leg = true ∧ art = .shoulder then
        add .exact (perArt c.offset art) (piAngle .exact) else perArt c.offset art) = true := by
    split_ifs
    · exact hpi.1
    · exact ho
  rw [(add_exact_real (hstep _).1 hoff).2, (hstep _).2, stepAngle_exact_real]
  congr 1
  · split_ifs <;> simp [mirrorBase]
  · split_ifs <;> simp [hpi.2]

/-- The mirrored command byte (R153). -/
theorem toNat_mirrored_byte {v : Byte} (hv : v.toNat ≤ 253) : (254#8 - v).toNat = 254 - v.toNat := by
  bv_omega

end

/-- Settles O25: the mirrored leg's effective value at 254 − v is v. -/
theorem convertFormulaAndMirrorSymmetry : Obligations.ConvertFormulaAndMirrorSymmetry := by
  refine ⟨fun c leg art v href hk ho => convert_real leg v href hk ho,
    fun c direct mirrored art v href hk ho hdirect hmirrored _ hv => ?_⟩
  have heff : (254 : ℝ) - ((254#8 - v).toNat : ℝ) = v.toNat := by
    rw [toNat_mirrored_byte hv, Nat.cast_sub (by omega)]
    push_cast
    ring
  rw [convert_real mirrored _ href hk ho, convert_real direct v href hk ho, hmirrored, hdirect,
    if_pos rfl, heff]
  simp

/-! ## SEQ_PUBLISH, and that TARGET and ZERO stay numbers (R149, R150) -/

section
variable (s : State)

theorem pushBytes_angles (l : List Byte) :
    (pushBytes l s).target = s.target ∧ (pushBytes l s).zero = s.zero := by
  rw [(pushBytes_frame l s).1]
  exact ⟨rfl, rfl⟩

theorem countDown_angles : (countDown s).target = s.target ∧ (countDown s).zero = s.zero := by
  rcases countDown_cases s with ⟨-, heq⟩ | ⟨-, heq⟩ <;> simp [heq]

theorem judgeFrame_angles (c : Byte) (rest : List Byte) :
    (judgeFrame c rest s).target = s.target ∧ (judgeFrame c rest s).zero = s.zero := by
  rcases judgeFrame_cases c rest s with ⟨-, heq⟩ | ⟨-, -, heq⟩ | ⟨-, -, heq⟩ <;> simp [heq]

theorem tickTo_angles (cur : Angles) :
    (tickTo cur s).target = s.target ∧ (tickTo cur s).zero = s.zero := by
  obtain ⟨t, stopped, heq, hframe, -⟩ := tickTo_spec cur s
  rw [heq, setResult_target, setResult_zero, hframe]
  exact ⟨rfl, rfl⟩

end

/-- Only SEQ_PUBLISH and RESET write TARGET or ZERO. -/
theorem Effect.angles_cases {s t : State} (h : Effect s t) :
    (t.target = s.target ∧ t.zero = s.zero) ∨ t = publishTargets s ∨
      ∃ init : Angles, angleRefusal s.cfg.arith init = none ∧ t = resetTo init s := by
  cases h with
  | reset init hinit => exact .inr (.inr ⟨init, hinit, rfl⟩)
  | publish => exact .inr (.inl rfl)
  | receive l => exact .inl (pushBytes_angles s l)
  | count => exact .inl (countDown_angles s)
  | tick cur => exact .inl (tickTo_angles s cur)
  | checksum c rest => exact .inl (judgeFrame_angles s c rest)
  | endOfStream | requestCancel | answer | discard | sync | payload | close | flush | arm | ack
  | cancel => exact .inl ⟨rfl, rfl⟩

theorem converter_of_validConfig {c : Config} (h : validConfig c = true) (art : Art) :
    isNumber (perArt c.offset art) = true ∧ validConverter c.arith c.converter = true := by
  simp only [validConfig, Bool.and_eq_true, and_assoc] at h
  obtain ⟨-, -, hshoulder, helbow, hwrist, hconv, -⟩ := h
  refine ⟨isNumber_of_isAngleOf (k := c.arith) ?_, hconv⟩
  cases art with
  | shoulder => exact hshoulder
  | elbow => exact helbow
  | wrist => exact hwrist

theorem convertedTargets_getElem (s : State) (j : Joint) : (convertedTargets s)[j] =
    convert s.cfg (legOfJoint j) (artOfJoint j) s.frame[s.cfg.servoMap[j]] := by
  simp [convertedTargets, servoIndex]

section
variable {s : State}

theorem AnglesAreNumbers.publishTargets (h : AnglesAreNumbers s) (hk : s.cfg.arith = .exact)
    (hcfg : validConfig s.cfg = true) : AnglesAreNumbers (publishTargets s) := by
  intro j
  obtain ⟨hoff, hconv⟩ := converter_of_validConfig hcfg (artOfJoint j)
  refine ⟨?_, (h j).2⟩
  rw [publishTargets_target, convertedTargets_getElem]
  exact isNumber_convert _ _ _ _ hk hoff hconv

theorem anglesAreNumbers_resetTo {init : Angles} (h : angleRefusal s.cfg.arith init = none) :
    AnglesAreNumbers (resetTo init s) :=
  fun j => ⟨by simp [resetTo, Angle.zero, isNumber],
    isNumber_of_isAngleOf (angleRefusal_none_iff.mp h j)⟩

end

/-- Settles O48, by the two effects that write an angle. -/
theorem stepKeepsAnglesNumbers : Obligations.StepKeepsAnglesNumbers := by
  intro s t hk hcfg hnum hstep
  rcases (step_effect hstep).angles_cases with ⟨htarget, hzero⟩ | rfl | ⟨init, hinit, rfl⟩
  · intro j
    rw [htarget, hzero]
    exact hnum j
  · exact AnglesAreNumbers.publishTargets hnum hk hcfg
  · exact anglesAreNumbers_resetTo hinit

/-- SEQ_PUBLISH in its own state (43_handshake R181). -/
theorem exec_seqPublish {s : State} (hq : s.seqState = .publish) :
    exec .seqPublish s = .next (publishTargets s) :=
  whenEnabled_next_iff.mpr ⟨by simp [hq], rfl⟩

/-- Settles O34: the table is looked up at the joint's own index. -/
theorem publishUsesTheGivenConverter : Obligations.PublishUsesTheGivenConverter := by
  intro s entries hq htable
  refine ⟨publishTargets s, exec_seqPublish hq, rfl, fun j => ?_⟩
  rw [publishTargets_target, convertedTargets_getElem, convert_table _ _ _ _ entries htable]
  simp only [jointOf_legOfJoint_artOfJoint]

end Sys2Proof.Machine
end

section
/-! SUPPORT. The per-joint servo state machine (42_joint_servo): which operands TICK takes, what it
leaves in each register, and its stop transition. -/

namespace Sys2Proof.Machine

/-! ## The operands (R160) -/

section
variable {k : ArithKind} {v : Angles}

/-- A check of all the angles is one of each joint's. -/
theorem all_angles_iff {f : Angle → Bool} :
    v.toList.all f = true ↔ ∀ j : Joint, f v[j] = true := by
  simp only [List.all_eq_true, Vector.mem_toList_iff, Vector.mem_iff_getElem, Fin.forall_iff]
  exact ⟨fun h n hn => h _ ⟨n, hn, rfl⟩, fun h _ ⟨n, hn, hx⟩ => hx ▸ h n hn⟩

theorem not_all_angles_iff {f : Angle → Bool} :
    ¬ v.toList.all f = true ↔ ∃ j : Joint, f v[j] = false := by
  rw [all_angles_iff, not_forall]
  simp only [Bool.not_eq_true]

theorem angleRefusal_nonFinite (h : ∃ j : Joint, isNumber v[j] = false) :
    angleRefusal k v = some .nonFiniteAngle := if_neg (not_all_angles_iff.mpr h)

theorem angleRefusal_notInInstance (hnum : ∀ j : Joint, isNumber v[j] = true)
    (h : ∃ j : Joint, isAngleOf k v[j] = false) : angleRefusal k v = some .angleNotInInstance :=
  (if_pos (all_angles_iff.mpr hnum)).trans (if_neg (not_all_angles_iff.mpr h))

theorem withCheckedAngles_refused {e : Refusal} (h : angleRefusal k v = some e) (r : Out) :
    withCheckedAngles k v r = .refused e := by
  rw [withCheckedAngles, h]

theorem isAngleOf_exact (x : Angle) : isAngleOf .exact x = isNumber x := by
  simp [isAngleOf, rnd]

end

/-- Settles O9: each of the nine rows checks its angles before it does anything. -/
theorem badAnglesAreRefused : Obligations.BadAnglesAreRefused := by
  intro s v i hi
  have hchecked : ∃ r : Out, exec i s = withCheckedAngles s.cfg.arith v r := by
    rcases hi with rfl | rfl | rfl | rfl | rfl | rfl | rfl | rfl | rfl <;> exact ⟨_, rfl⟩
  obtain ⟨r, heq⟩ := hchecked
  rw [heq]
  exact ⟨fun h => withCheckedAngles_refused (angleRefusal_nonFinite h) r,
    fun hnum h => withCheckedAngles_refused (angleRefusal_notInInstance hnum h) r⟩

/-! ## What a TICK leaves (R160 to R163) -/

section
variable {cur : Angles} {s : State}

theorem settledAfter_all (j : Joint) :
    settledAfter cur s 18 j = (jointEval cur s j).settled := if_pos j.isLt

/-- The update of a joint leaves the other joints' SETTLED. -/
theorem settledAfter_succ_of_ne {n : Nat} {j : Joint} (h : j.val ≠ n) :
    settledAfter cur s (n + 1) j = settledAfter cur s n j := by
  have hiff : j.val < n + 1 ↔ j.val < n := by omega
  simp only [settledAfter, hiff]

theorem movingAfter_succ_iff {n : Nat} :
    movingAfter cur s (n + 1) = true ↔ ∃ j : Joint, settledAfter cur s (n + 1) j = false :=
  decide_eq_true_iff

theorem movingAfter_succ_eq_false_iff {n : Nat} :
    movingAfter cur s (n + 1) = false ↔ ∀ j : Joint, settledAfter cur s (n + 1) j = true := by
  rw [← Bool.not_eq_true, movingAfter_succ_iff]
  simp

theorem tickTo_settled (j : Joint) : (tickTo cur s).settled[j] = (jointEval cur s j).settled := by
  obtain ⟨t, stopped, heq, -, hsettled, -⟩ := tickTo_spec cur s
  rw [heq, setResult_settled, hsettled, settledAfter_all]

theorem tickTo_moving_iff :
    (tickTo cur s).moving = true ↔ ∃ j : Joint, (tickTo cur s).settled[j] = false := by
  obtain ⟨t, stopped, heq, -, hsettled, -, hmoving, -⟩ := tickTo_spec cur s
  simp only [heq, setResult_moving, setResult_settled, hmoving, hsettled]
  exact movingAfter_succ_iff

/-- A TICK writes SETTLED, DRIVE_OUT, MOVING, AWAITING and its result. -/
theorem tickTo_frame : tickTo cur s = { s with
    settled := (tickTo cur s).settled, driveOut := (tickTo cur s).driveOut,
    moving := (tickTo cur s).moving, awaiting := (tickTo cur s).awaiting,
    result := (tickTo cur s).result } := by
  obtain ⟨t, stopped, heq, hframe, -⟩ := tickTo_spec cur s
  rw [heq]
  exact congrArg (setResult _) hframe

/-- The `stopped` bit and AWAITING say whether a stop transition occurred (R164, R165). -/
theorem tickTo_stopped : ∃ stopped : Bool,
    (tickTo cur s).result = .tick (tickTo cur s).driveOut stopped ∧
      (stopped = true ↔ ∃ k : Nat, StopAt cur s k) ∧
      (tickTo cur s).awaiting = if stopped = true then false else s.awaiting := by
  obtain ⟨t, stopped, heq, -, -, -, -, hawaiting, hstopped⟩ := tickTo_spec cur s
  have hwithin : StopWithin cur s 18 ↔ ∃ k : Nat, StopAt cur s k :=
    exists_congr fun k => and_iff_right_of_imp And.left
  rw [heq, setResult_result, setResult_driveOut, setResult_awaiting]
  refine ⟨stopped, rfl, hstopped.trans hwithin, ?_⟩
  rw [← hstopped] at hawaiting
  rw [Bool.eq_iff_iff, hawaiting]
  cases stopped <;> simp

end

/-- Settles O28: AWAITING is the one register left out, which a stop transition may clear. -/
theorem tickUpdatesEveryJoint : Obligations.TickUpdatesEveryJoint := by
  intro s cur hcur
  obtain ⟨stopped, hresult, -⟩ := tickTo_stopped (cur := cur) (s := s)
  refine ⟨_, stopped, exec_tick hcur, ?_, tickTo_moving_iff, hresult, tickTo_frame⟩
  rintro j r rfl
  exact ⟨tickTo_settled j, tickTo_driveOut cur s j⟩

/-- Settles O29: `stopped` holds exactly the stop transitions, and AWAITING goes by it. -/
theorem stopTransitionClearsAwaiting : Obligations.StopTransitionClearsAwaiting := by
  intro s cur hcur
  obtain ⟨stopped, hstopped⟩ := tickTo_stopped (cur := cur) (s := s)
  exact ⟨_, stopped, exec_tick hcur, hstopped⟩

/-! ## The stop transition (R164 to R168) -/

section
variable {cur : Angles} {s : State} {k m : Nat}

/-- After a stop transition the joints still to be updated are settled. -/
theorem StopAt.settled_later (h : StopAt cur s k) {j : Joint} (hj : k < j.val) :
    s.settled[j] = true := by
  obtain ⟨-, -, hstill⟩ := h
  have hset := movingAfter_succ_eq_false_iff.mp hstill j
  rwa [settledAfter, if_neg (by omega)] at hset

/-- The joint whose update stops the motion was not settled before the TICK, unless it is the first:
MOVING before the first update need not be of SETTLED. -/
theorem StopAt.unsettled_joint (h : StopAt cur s k) (h0 : k ≠ 0) :
    ∃ j : Joint, j.val = k ∧ s.settled[j] = false := by
  obtain ⟨-, hmoving, hstill⟩ := h
  obtain ⟨n, rfl⟩ := Nat.exists_eq_succ_of_ne_zero h0
  obtain ⟨j, hbefore⟩ := movingAfter_succ_iff.mp hmoving
  have hafter := movingAfter_succ_eq_false_iff.mp hstill j
  have hj : j.val = n + 1 := by
    by_contra hne
    rw [settledAfter_succ_of_ne hne, hbefore] at hafter
    cases hafter
  rw [settledAfter, if_neg (by omega)] at hbefore
  exact ⟨j, hj, hbefore⟩

/-- A second stop transition would need its joint unsettled before the TICK, and the first leaves
every later joint settled (R166). -/
theorem StopAt.le (hk : StopAt cur s k) (hm : StopAt cur s m) : m ≤ k := by
  by_contra hlt
  obtain ⟨j, rfl, hunsettled⟩ := hm.unsettled_joint (by omega)
  rw [hk.settled_later (by omega)] at hunsettled
  cases hunsettled

theorem StopAt.unique (hk : StopAt cur s k) (hm : StopAt cur s m) : k = m :=
  Nat.le_antisymm (hm.le hk) (hk.le hm)

/-- A stop transition needs MOVING = 1 at the start, where MOVING = OR NOT SETTLED (R168). -/
theorem StopAt.moving (hinv : s.moving = anyUnsettled s.settled) (h : StopAt cur s k) :
    s.moving = true := by
  by_cases h0 : k = 0
  · obtain ⟨-, hmoving, -⟩ := h
    rwa [h0] at hmoving
  · obtain ⟨j, -, hunsettled⟩ := h.unsettled_joint h0
    rw [hinv, anyUnsettled_iff]
    exact ⟨j, hunsettled⟩

end

theorem tickAfter_moving (cur : Angles) (s : State) {k : Nat} (hk : k ≤ 18) :
    (tickAfter cur s k).1.moving = movingAfter cur s k := by
  obtain ⟨-, -, -, hmoving, -⟩ := tickAfter_spec cur s k hk
  exact hmoving

/-- Settles O30: MOVING in the loop is `movingAfter`, so its falls are stop transitions. -/
theorem atMostOneStopTransition : Obligations.AtMostOneStopTransition := by
  intro s cur
  refine ⟨fun hcur => ?_, fun k hk => tickAfter_moving cur s hk,
    fun k m hk hm hk1 hk0 hm1 hm0 => ?_⟩
  · rw [exec_tick hcur, tickAfter_all]
    rfl
  · rw [tickAfter_moving cur s (by omega)] at hk1 hk0 hm1 hm0
    exact StopAt.unique ⟨hk, hk1, hk0⟩ ⟨hm, hm1, hm0⟩

/-- Settles O31: without motion before it, a TICK has no stop transition to report. -/
theorem noStopWithoutPriorMotion : Obligations.NoStopWithoutPriorMotion := by
  refine ⟨fun s cur k hinv hstop => hstop.moving hinv, fun s cur hinv hstill hcur hsettled => ?_⟩
  have hnone : ¬ ∃ k : Nat, StopAt cur s k := fun ⟨_, hstop⟩ =>
    Bool.false_ne_true (hstill.symm.trans (hstop.moving hinv))
  obtain ⟨stopped, hresult, hstopped, hawaiting⟩ := tickTo_stopped (cur := cur) (s := s)
  obtain rfl : stopped = false := eq_false_of_ne_true (mt hstopped.mp hnone)
  refine ⟨_, exec_tick hcur, ?_, hawaiting, hresult⟩
  rw [← Bool.not_eq_true, tickTo_moving_iff]
  rintro ⟨j, hj⟩
  rw [tickTo_settled] at hj
  exact Bool.false_ne_true (hj.symm.trans (hsettled j))

/-! ## The drive codes (R161) -/

/-- Bit 3 of a drive code of TICK is the settled flag (30_encoding R86). -/
theorem driveBits_driveCode_settled (tier : Tier) (dir : Dir) :
    (driveBits (driveCode tier dir)).getLsbD 3 = isSettledTier tier := by
  cases tier <;> cases dir <;> rfl

/-- Settles O32: the tier and the direction of the difference (O24) give the code. -/
theorem tickEmitsTheCodeOfTheTier : Obligations.TickEmitsTheCodeOfTheTier := by
  intro s cur hk hnum hcur
  have hangles : ∀ j : Joint, isAngleOf s.cfg.arith cur[j] = true := by
    intro j
    rw [hk, isAngleOf_exact]
    exact hcur j
  refine ⟨_, exec_tick hangles, fun j d hd => ?_⟩
  obtain ⟨htarget, hzero⟩ := hnum j
  obtain ⟨-, htierZero, htierSoft, htierFull, -, hdirSoft, hdirFull, -⟩ :=
    tierDirectionAndSettled.2 _ _ _ (hcur j) hzero htarget d hd
  have heval : jointEval cur s j = angleEval .exact cur[j] s.zero[j] s.target[j] := by
    rw [jointEval, hk]
  rw [← heval] at htierZero htierSoft htierFull hdirSoft hdirFull
  rw [tickTo_driveOut, tickTo_settled]
  refine ⟨fun hz => ?_, fun hs hs' hpos => ?_, fun hs hs' hneg => ?_, fun hf hpos => ?_,
    fun hf hneg => ?_, driveBits_driveCode_settled _ _⟩
  · rw [htierZero hz]
    rfl
  · rw [htierSoft hs hs', hdirSoft hs hs', if_pos hpos]
    rfl
  · rw [htierSoft hs hs', hdirSoft hs hs', if_neg hneg.not_gt]
    rfl
  · rw [htierFull hf, hdirFull hf, if_pos hpos]
    rfl
  · rw [htierFull hf, hdirFull hf, if_neg hneg.not_gt]
    rfl

end Sys2Proof.Machine
end

section
/-! SUPPORT. The SEQ agent (43_handshake R180): what each of its ten steps does, where it is enabled,
and that the agent comes to rest. -/

namespace Sys2Proof.Machine

/-! ## The ten steps -/

/-- The state a SEQ step leaves where it is enabled. The head of an empty RX_FIFO is no matter: no
step that takes a byte is enabled then. -/
def seqEffect (s : State) : SeqStep → State
  | .huntDiscard => setFifo s.rxFifo.tail s
  | .sync => takeSync s.rxFifo.tail s
  | .payload => takePayload (s.rxFifo.headD 0x00#8) s.rxFifo.tail s
  | .csum => judgeFrame (s.rxFifo.headD 0x00#8) s.rxFifo.tail s
  | .eos => closeStream s
  | .publish => publishTargets s
  | .flush => flushInput s
  | .arm => armWait s
  | .ack => acknowledge s
  | .cancel => cancelSequencer s

section
variable {s : State} {k m : SeqStep}

theorem onHead_eq_whenEnabled (s : State) (e : Byte → Bool) (f : Byte → List Byte → State) :
    onHead s e f = whenEnabled (s.rxFifo.head?.any e) (f (s.rxFifo.headD 0x00#8) s.rxFifo.tail) := by
  rw [onHead]
  cases s.rxFifo with
  | nil => rfl
  | cons b rest => rfl

theorem reading_iff {q : SeqState} :
    reading q s = true ↔ s.seqState = q ∧ s.cancelLatch = false := by
  simp [reading]

theorem isReadState_iff :
    isReadState s = true ↔ s.seqState = .hunt ∨ s.seqState = .payload ∨ s.seqState = .csum := by
  simp [isReadState, or_assoc]

/-- Each SEQ step is its effect, under a condition that is the one of its own rule. -/
theorem exec_seqInstr (s : State) (k : SeqStep) :
    ∃ e : Bool, (e = true ↔ StepEnabled s k) ∧
      exec (seqInstr k) s = whenEnabled e (seqEffect s k) := by
  cases k with
  | huntDiscard =>
    refine ⟨_, ?_, onHead_eq_whenEnabled s (fun c => reading .hunt s && c != SYNC) _⟩
    cases hf : s.rxFifo <;> simp [StepEnabled, reading_iff, hf, SYNC, and_assoc]
  | sync =>
    refine ⟨_, ?_, onHead_eq_whenEnabled s (fun c => reading .hunt s && c == SYNC) _⟩
    cases hf : s.rxFifo <;> simp [StepEnabled, reading_iff, hf, SYNC, and_assoc]
  | payload =>
    refine ⟨_, ?_, onHead_eq_whenEnabled s (fun _ => reading .payload s) _⟩
    cases hf : s.rxFifo <;> simp [StepEnabled, reading_iff, hf]
  | csum =>
    refine ⟨_, ?_, onHead_eq_whenEnabled s (fun _ => reading .csum s) _⟩
    cases hf : s.rxFifo <;> simp [StepEnabled, reading_iff, hf]
  | eos => exact ⟨eosDue s, by simp [eosDue, isReadState_iff, StepEnabled, and_assoc], rfl⟩
  | publish => exact ⟨_, beq_iff_eq, rfl⟩
  | flush => exact ⟨_, beq_iff_eq, rfl⟩
  | arm => exact ⟨_, beq_iff_eq, rfl⟩
  | ack => exact ⟨ackDue s, by simp [ackDue, StepEnabled, and_assoc], rfl⟩
  | cancel => exact ⟨cancelDue s, by simp [cancelDue, isReadState_iff, StepEnabled, or_assoc], rfl⟩

theorem exec_seqInstr_of_enabled (h : StepEnabled s k) :
    exec (seqInstr k) s = .next (seqEffect s k) := by
  obtain ⟨e, he, heq⟩ := exec_seqInstr s k
  exact heq.trans (whenEnabled_next_iff.mpr ⟨he.mpr h, rfl⟩)

/-- A step outside its condition is refused by name (log 12). -/
theorem exec_seqInstr_of_not_enabled (h : ¬ StepEnabled s k) :
    exec (seqInstr k) s = .refused .notEnabled := by
  obtain ⟨e, he, heq⟩ := exec_seqInstr s k
  exact heq.trans (if_neg (mt he.mp h))

theorem exists_next_iff_stepEnabled :
    (∃ t : State, exec (seqInstr k) s = .next t) ↔ StepEnabled s k := by
  refine ⟨fun ⟨t, ht⟩ => ?_, fun h => ⟨_, exec_seqInstr_of_enabled h⟩⟩
  by_contra hnot
  rw [exec_seqInstr_of_not_enabled hnot] at ht
  cases ht

/-! ## The enabled step -/

/-- Of the transition table's answers, each one's own condition holds. -/
theorem stepEnabled_of_enabledStep (h : enabledStep s = some k) : StepEnabled s k := by
  rw [enabledStep] at h
  split at h
  case h_1 hq =>
    split at h
    · cases h; exact ⟨.inl hq, ‹_›⟩
    · rename_i hc
      rw [Bool.not_eq_true] at hc
      split at h
      · rename_i b rest hf
        split at h
        · subst b; cases h; exact ⟨hq, hc, rest, hf⟩
        · cases h; exact ⟨hq, hc, b, rest, hf, ‹_›⟩
      · split at h
        · cases h; exact ⟨.inl hq, hc, ‹_›, ‹_›⟩
        · cases h
  case h_2 hq | h_3 hq =>
    split at h
    · cases h; exact ⟨by simp [hq], ‹_›⟩
    · rename_i hc
      rw [Bool.not_eq_true] at hc
      split at h
      · rename_i hf
        cases h; exact ⟨hq, hc, by simp [hf]⟩
      · split at h
        · cases h; exact ⟨by simp [hq], hc, ‹_›, ‹_›⟩
        · cases h
  case h_4 hq | h_5 hq | h_6 hq => cases h; exact hq
  case h_7 hq =>
    split at h
    · cases h; exact ⟨by simp [hq], ‹_›⟩
    · rename_i hc
      split at h
      · cases h
      · rename_i ha
        cases h; exact ⟨hq, Bool.eq_false_iff.mpr hc, Bool.eq_false_iff.mpr ha⟩
  case h_8 | h_9 => cases h

/-- A step whose own condition holds is the transition table's answer. -/
theorem enabledStep_of_stepEnabled (h : StepEnabled s k) : enabledStep s = some k := by
  cases k with
  | huntDiscard =>
    obtain ⟨hq, hc, b, rest, hf, hb⟩ := h
    simp [enabledStep, hq, hc, hf, hb, SYNC]
  | sync =>
    obtain ⟨hq, hc, rest, hf⟩ := h
    simp [enabledStep, hq, hc, hf, SYNC]
  | payload | csum =>
    obtain ⟨hq, hc, hf⟩ := h
    obtain ⟨b, rest, hf⟩ := List.exists_cons_of_ne_nil hf
    simp [enabledStep, hq, hc, hf]
  | eos =>
    obtain ⟨hq, hc, heos, hf⟩ := h
    rcases hq with hq | hq | hq <;> simp [enabledStep, hq, hc, heos, hf]
  | publish | flush | arm => rw [enabledStep, h]
  | ack =>
    obtain ⟨hq, hc, ha⟩ := h
    simp [enabledStep, hq, hc, ha]
  | cancel =>
    obtain ⟨hq, hc⟩ := h
    rcases hq with hq | hq | hq | hq <;> simp [enabledStep, hq, hc]

theorem enabledStep_eq_some_iff : enabledStep s = some k ↔ StepEnabled s k :=
  ⟨stepEnabled_of_enabledStep, enabledStep_of_stepEnabled⟩

/-- The transition table answers one step at most. -/
theorem StepEnabled.unique (hk : StepEnabled s k) (hm : StepEnabled s m) : k = m :=
  Option.some.inj ((enabledStep_of_stepEnabled hk).symm.trans (enabledStep_of_stepEnabled hm))

end

/-- Settles O39: the transition table lists the steps by their own conditions. -/
theorem oneSeqStepIsEnabled : Obligations.OneSeqStepIsEnabled :=
  ⟨fun _ _ => exists_next_iff_stepEnabled, fun _ _ _ => StepEnabled.unique,
    fun _ _ => enabledStep_eq_some_iff, fun _ _ => exec_seqInstr_of_not_enabled⟩

/-! ## The agent left to itself (R180, 30_encoding R96) -/

/-- A bound of the moves from a SEQ_STATE that take no byte. An armed wait blocks unless it is
cancelled; any other may be acknowledged, so it counts one more than HUNT. -/
def stageMoves (awaiting : Bool) : SeqState → Nat
  | .hunt | .payload | .csum | .publish => 4
  | .flush => 3
  | .arm => 2
  | .wait => if awaiting then 1 else 5
  | .terminated | .fault => 0

/-- A bound of the moves the SEQ agent makes without the host: each byte held is taken once. -/
def movesLeft (s : State) : Nat := s.rxFifo.length + stageMoves s.awaiting s.seqState

section
variable {s : State} {k : SeqStep}

theorem movesLeft_le (s : State) : movesLeft s ≤ s.rxFifo.length + 5 := by
  refine Nat.add_le_add_left ?_ _
  cases s.seqState <;> cases s.awaiting <;> decide

@[simp] theorem judgeFrame_launched (s : State) (c : Byte) (rest : List Byte) :
    (judgeFrame c rest s).launched = s.launched := by
  rcases judgeFrame_cases c rest s with ⟨-, heq⟩ | ⟨-, -, heq⟩ | ⟨-, -, heq⟩ <;> simp [heq]

theorem seqEffect_launched (s : State) (k : SeqStep) : (seqEffect s k).launched = s.launched := by
  cases k with
  | csum => exact judgeFrame_launched s _ _
  | _ => rfl

/-- A judged frame leaves no more to do than the four moves from CSUM. -/
theorem stageMoves_judgeFrame_le (c : Byte) (rest : List Byte) (s : State) (a : Bool) :
    stageMoves a (judgeFrame c rest s).seqState ≤ 4 := by
  rcases judgeFrame_cases c rest s with ⟨-, heq⟩ | ⟨-, -, heq⟩ | ⟨-, -, heq⟩ <;>
    simp [heq, stageMoves]

/-- Every step the agent takes brings it nearer to rest: it takes a byte, or goes on to a SEQ_STATE
with fewer moves left. -/
theorem movesLeft_seqEffect_lt (h : StepEnabled s k) : movesLeft (seqEffect s k) < movesLeft s := by
  cases k with
  | huntDiscard =>
    obtain ⟨hq, -, b, rest, hf, -⟩ := h
    simp [movesLeft, seqEffect, hq, hf]
  | sync =>
    obtain ⟨hq, -, rest, hf⟩ := h
    simp [movesLeft, seqEffect, hq, hf, stageMoves]
  | payload =>
    obtain ⟨hq, -, hf⟩ := h
    obtain ⟨b, rest, hf⟩ := List.exists_cons_of_ne_nil hf
    simp only [movesLeft, seqEffect, takePayload_rxFifo, takePayload_seqState, hq, hf]
    split <;> simp [stageMoves]
  | csum =>
    obtain ⟨hq, -, hf⟩ := h
    obtain ⟨b, rest, hf⟩ := List.exists_cons_of_ne_nil hf
    have hle := stageMoves_judgeFrame_le b rest s (judgeFrame b rest s).awaiting
    have hcsum : stageMoves s.awaiting .csum = 4 := rfl
    simp only [movesLeft, seqEffect, hq, hf, judgeFrame_rxFifo, List.headD_cons, List.tail_cons,
      List.length_cons, hcsum]
    omega
  | eos =>
    obtain ⟨hq, -, -, hf⟩ := h
    rcases hq with hq | hq | hq <;> simp [movesLeft, seqEffect, hq, stageMoves]
  | publish => simp [movesLeft, seqEffect, show s.seqState = .publish from h, stageMoves]
  | flush => simp [movesLeft, seqEffect, show s.seqState = .flush from h, stageMoves]
  | arm => simp [movesLeft, seqEffect, show s.seqState = .arm from h, stageMoves]
  | ack =>
    obtain ⟨hq, -, ha⟩ := h
    simp [movesLeft, seqEffect, hq, ha, stageMoves]
  | cancel =>
    obtain ⟨hq, -⟩ := h
    rcases hq with hq | hq | hq | hq <;> cases ha : s.awaiting <;>
      simp [movesLeft, seqEffect, hq, ha, stageMoves]

theorem seqMove_of_stepEnabled (hl : s.launched = true) (h : StepEnabled s k) :
    seqMove s = .next (seqEffect s k) :=
  (seqMove_of_enabled hl (enabledStep_of_stepEnabled h)).trans (exec_seqInstr_of_enabled h)

/-- The agent comes to rest within its bound, by induction on the bound. -/
theorem exists_rest (hl : s.launched = true) : ∃ (n : Nat) (t : State), n ≤ movesLeft s ∧
    repeatStep seqMove n s = .next t ∧ enabledStep t = none := by
  induction hb : movesLeft s using Nat.strong_induction_on generalizing s with
  | _ bound ih =>
    cases hk : enabledStep s with
    | none => exact ⟨0, s, Nat.zero_le _, rfl, hk⟩
    | some k =>
      have hen := stepEnabled_of_enabledStep hk
      have hlt := movesLeft_seqEffect_lt hen
      rw [hb] at hlt
      obtain ⟨n, t, hn, hrun, hrest⟩ := ih _ hlt ((seqEffect_launched s k).trans hl) rfl
      exact ⟨n + 1, t, hn.trans_lt hlt,
        (repeatStep_succ (seqMove_of_stepEnabled hl hen) n).trans hrun, hrest⟩

end

/-- Settles O40: five moves beside one for each byte are enough. -/
theorem seqAgentComesToRest : Obligations.SeqAgentComesToRest := by
  intro s hl
  obtain ⟨n, t, hn, hrun, hrest⟩ := exists_rest hl
  exact ⟨n, t, by have := movesLeft_le s; omega, hrun, hrest⟩

end Sys2Proof.Machine
end

section
/-! SUPPORT. The handshake after an accepted frame (43_handshake): SEQ_PUBLISH to SEQ_ACK, the wait
and its timeout, SNAPSHOT, and the sequencer cancelled or ended. -/

namespace Sys2Proof.Machine

/-! ## SEQ_PUBLISH, SEQ_FLUSH, SEQ_ARM, SEQ_ACK and SNAPSHOT (R181 to R186, R207) -/

/-- Settles O33: the joint of a pair has that pair's leg and articulation. -/
theorem publishConvertsAllTargets : Obligations.PublishConvertsAllTargets := by
  refine fun s hq => ⟨_, exec_seqPublish hq, fun leg art => ?_, rfl, rfl⟩
  rw [publishTargets_target, convertedTargets_getElem, legOfJoint_jointOf, artOfJoint_jointOf]
  rfl

/-- Settles O35: each step in its own state. -/
theorem flushArmAndAcknowledge : Obligations.FlushArmAndAcknowledge :=
  fun _ => ⟨fun hq => exec_seqInstr_of_enabled (k := .flush) hq,
    fun hq => exec_seqInstr_of_enabled (k := .arm) hq,
    fun hq hc ha => exec_seqInstr_of_enabled (k := .ack) ⟨hq, hc, ha⟩⟩

/-- Settles O45: the result is TARGET itself. -/
theorem snapshotReturnsTheTargets : Obligations.SnapshotReturnsTheTargets :=
  fun s => ⟨s.target, rfl, fun _ => rfl⟩

/-! ## TIME_TICK (R200 to R203) -/

section
variable {s : State}

theorem armedWait_iff : armedWait s = true ↔
    s.seqState = .wait ∧ s.cancelLatch = false ∧ s.awaiting = true := by
  simp [armedWait, and_assoc]

theorem armedWait_eq_false_iff : armedWait s = false ↔
    s.seqState ≠ .wait ∨ s.cancelLatch = true ∨ s.awaiting = false := by
  simp [armedWait, imp_iff_not_or, or_assoc]

theorem exec_timeTick_of_armed (h : armedWait s = true) :
    exec .timeTick s = .next (setResult .none (countDown s)) := by
  rw [exec, execTimeTick, if_pos h]

theorem exec_timeTick_of_unarmed (h : armedWait s = false) :
    exec .timeTick s = .next (setResult .none s) := by
  rw [exec, execTimeTick, h, if_neg Bool.false_ne_true]

/-- Above 1 the counter goes down and the wait goes on. -/
theorem countDown_of_two_le (h : 2 ≤ s.timer) : countDown s = { s with timer := s.timer - 1 } := by
  rcases countDown_cases s with ⟨-, heq⟩ | ⟨hzero, -⟩
  · exact heq
  · omega

end

/-- Settles O36: the three cases of TIME_TICK. -/
theorem timeTickCountsTheArmedWait : Obligations.TimeTickCountsTheArmedWait := by
  refine fun s => ⟨fun hq hc ha ht => ?_, fun hq hc ha ht => ?_, fun h => ?_⟩
  · rw [exec_timeTick_of_armed (armedWait_iff.mpr ⟨hq, hc, ha⟩), countDown_of_two_le ht]
    rfl
  · rw [exec_timeTick_of_armed (armedWait_iff.mpr ⟨hq, hc, ha⟩), countDown_of_timer_eq_one ht]
    rfl
  · exact exec_timeTick_of_unarmed (armedWait_eq_false_iff.mpr h)

/-! ## Runs of TIME_TICKs (R199, R201) -/

section
variable {s : State}

/-- Outside an armed wait no number of TIME_TICKs writes a register. -/
theorem repeatStep_timeTick_of_unarmed (h : armedWait s = false) (n : Nat) :
    ∃ r : OpResult, repeatStep (exec .timeTick) n s = .next (setResult r s) := by
  induction n generalizing s with
  | zero => exact ⟨s.result, rfl⟩
  | succ n ih =>
    rw [repeatStep_succ (exec_timeTick_of_unarmed h)]
    exact ih h

/-- Fewer TIME_TICKs than TIMER holds leave the wait armed and that much nearer to 0. -/
theorem repeatStep_timeTick_of_armed (h : armedWait s = true) {n : Nat} (hn : n < s.timer) :
    ∃ r : OpResult, repeatStep (exec .timeTick) n s =
      .next (setResult r { s with timer := s.timer - n }) := by
  induction n generalizing s with
  | zero => exact ⟨s.result, rfl⟩
  | succ n ih =>
    rw [repeatStep_succ (exec_timeTick_of_armed h), countDown_of_two_le (by omega)]
    obtain ⟨r, hrun⟩ := ih (s := setResult .none { s with timer := s.timer - 1 }) h
      (show n < s.timer - 1 by omega)
    refine ⟨r, hrun.trans ?_⟩
    rw [Nat.add_comm n 1, ← Nat.sub_sub]
    rfl

/-- As many TIME_TICKs as TIMER holds expire the wait. -/
theorem repeatStep_timeTick_expires (h : armedWait s = true) (hpos : 1 ≤ s.timer) :
    repeatStep (exec .timeTick) s.timer s =
      .next (setResult .none (nackAndHunt .settleTimeout { s with timer := 0 })) := by
  obtain ⟨r, hrun⟩ := repeatStep_timeTick_of_armed h (n := s.timer - 1) (by omega)
  have hone : s.timer - (s.timer - 1) = 1 := by omega
  rw [hone] at hrun
  have hsplit := repeatStep_add hrun 1
  have hlast := exec_timeTick_of_armed (s := setResult r { s with timer := 1 }) h
  rw [Nat.sub_add_cancel hpos, repeatStep_succ hlast, countDown_of_timer_eq_one rfl] at hsplit
  exact hsplit

end

/-- Settles O37: with AWAITING = 0 the wait is not armed. -/
theorem ackOverTimeout : Obligations.AckOverTimeout := by
  intro s n hq hc ha
  obtain ⟨r, hrun⟩ :=
    repeatStep_timeTick_of_unarmed (armedWait_eq_false_iff.mpr (.inr (.inr ha))) n
  have hack : exec .seqAck (setResult r s) = .next (acknowledge (setResult r s)) :=
    exec_seqInstr_of_enabled (k := .ack) ⟨hq, hc, ha⟩
  exact ⟨_, _, hrun, rfl, rfl, hack, rfl, rfl⟩

/-- Settles O38: SEQ_ARM arms the wait with TIMER = TIMEOUT_TICKS. -/
theorem waitExpiresAtTimeoutTicks : Obligations.WaitExpiresAtTimeoutTicks := by
  intro s hq hc hcfg
  have harmed : armedWait (armWait s) = true := armedWait_iff.mpr ⟨rfl, hc, rfl⟩
  refine ⟨_, exec_seqInstr_of_enabled (k := .arm) hq, fun n hn => ?_, ?_⟩
  · obtain ⟨r, hrun⟩ := repeatStep_timeTick_of_armed harmed hn
    exact ⟨_, hrun, rfl, rfl, rfl⟩
  · exact ⟨_, repeatStep_timeTick_expires harmed (one_le_timeoutTicks hcfg), rfl, rfl, rfl, rfl,
      rfl, rfl⟩

/-! ## What cancels and ends the link (R189, R190) -/

section
variable (s : State)

theorem pushBytes_seqState_cancelLatch (l : List Byte) :
    (pushBytes l s).seqState = s.seqState ∧ (pushBytes l s).cancelLatch = s.cancelLatch := by
  rw [(pushBytes_frame l s).1]
  exact ⟨rfl, rfl⟩

theorem tickTo_seqState_cancelLatch (cur : Angles) :
    (tickTo cur s).seqState = s.seqState ∧ (tickTo cur s).cancelLatch = s.cancelLatch := by
  rw [tickTo_frame]
  exact ⟨rfl, rfl⟩

end

section
variable {s t : State}

theorem not_reading_of_cancelLatch (hc : s.cancelLatch = true) {q : SeqState} :
    ¬ reading q s = true := fun h => by
  obtain ⟨-, hnone⟩ := reading_iff.mp h
  exact Bool.false_ne_true (hnone.symm.trans hc)

theorem armedWait_of_cancelLatch (hc : s.cancelLatch = true) : armedWait s = false :=
  armedWait_eq_false_iff.mpr (.inr (.inl hc))

/-- With a cancellation latched, whatever the block does but RESET is silent and keeps the latch: the
three effects that may send a response are not enabled. -/
theorem Effect.silent_of_cancelLatch (h : Effect s t) (hc : s.cancelLatch = true) :
    (t.txOut = s.txOut ∧ t.cancelLatch = true) ∨ ∃ init : Angles, t = resetTo init s := by
  cases h with
  | reset init => exact .inr ⟨init, rfl⟩
  | receive l => exact .inl ⟨pushBytes_txOut s l, (pushBytes_seqState_cancelLatch s l).2.trans hc⟩
  | requestCancel => exact .inl ⟨rfl, rfl⟩
  | count ha => rw [armedWait_of_cancelLatch hc] at ha; cases ha
  | tick cur =>
    exact .inl ⟨tickTo_txOut s cur, (tickTo_seqState_cancelLatch s cur).2.trans hc⟩
  | checksum c rest hf hr => exact absurd hr (not_reading_of_cancelLatch hc)
  | ack ha => simp [ackDue, hc] at ha
  | endOfStream | answer | discard | sync | payload | close | publish | flush | arm | cancel =>
    exact .inl ⟨rfl, hc⟩

/-- In TERMINATED and FAULT no step's condition holds. -/
theorem not_stepEnabled_of_ended (hq : s.seqState = .terminated ∨ s.seqState = .fault)
    (k : SeqStep) : ¬ StepEnabled s k := by
  rw [← enabledStep_eq_some_iff]
  rcases hq with hq | hq <;> simp [enabledStep, hq]

theorem Effect.seqState_of_ended (h : Effect s t)
    (hq : s.seqState = .terminated ∨ s.seqState = .fault) :
    t.seqState = s.seqState ∨ ∃ init : Angles, t = resetTo init s := by
  cases h with
  | reset init => exact .inr ⟨init, rfl⟩
  | receive l => exact .inl (pushBytes_seqState_cancelLatch s l).1
  | tick cur => exact .inl (tickTo_seqState_cancelLatch s cur).1
  | discard | sync | payload | checksum =>
    have hread := seqState_of_reading ‹reading _ s = true›
    simp [hread] at hq
  | publish hown | flush hown | arm hown => simp [hown] at hq
  | close hdue | ack hdue | cancel hdue | count hdue =>
    rcases hq with hq | hq <;>
      simp [eosDue, ackDue, cancelDue, isReadState, armedWait, hq] at hdue
  | endOfStream | requestCancel | answer => exact .inl rfl

end

/-- Settles O41: the effects of a step, and the steps' own conditions, which but for SEQ_PUBLISH,
SEQ_FLUSH and SEQ_ARM ask for no cancellation. -/
theorem cancellationSilencesTheLink : Obligations.CancellationSilencesTheLink := by
  refine fun s hc => ⟨fun t hstep => (step_effect hstep).silent_of_cancelLatch hc, fun k hk => ?_,
    exec_timeTick_of_unarmed (armedWait_of_cancelLatch hc), fun hq => ?_, fun hq => ?_, fun hq => ?_⟩
  · refine exec_seqInstr_of_not_enabled ?_
    rcases hk with rfl | rfl | rfl | rfl | rfl | rfl <;> simp [StepEnabled, hc]
  · exact ⟨_, exec_seqPublish hq, rfl⟩
  · exact ⟨_, exec_seqInstr_of_enabled (k := .flush) hq, rfl⟩
  · exact ⟨_, exec_seqInstr_of_enabled (k := .arm) hq, rfl⟩

/-- Settles O42: no SEQ step is enabled, and what else a step does but RESET keeps SEQ_STATE. -/
theorem endedSequencerStaysEnded : Obligations.EndedSequencerStaysEnded := by
  intro s hq
  have hunarmed : armedWait s = false :=
    armedWait_eq_false_iff.mpr (.inl (by rcases hq with hq | hq <;> simp [hq]))
  refine ⟨fun k => exec_seqInstr_of_not_enabled (not_stepEnabled_of_ended hq k),
    fun t hstep => (step_effect hstep).seqState_of_ended hq, fun b => (rxByteQueuesOrOverruns s b).1,
    fun cur hcur => ⟨_, exec_tick hcur, (tickTo_seqState_cancelLatch s cur).1, ?_⟩,
    exec_timeTick_of_unarmed hunarmed, fun n => ⟨_, exec_readReg rfl⟩, ⟨_, rfl⟩, fun p => ⟨_, rfl⟩⟩
  rintro j r rfl
  exact ⟨tickTo_settled j, tickTo_driveOut cur s j⟩

end Sys2Proof.Machine
end

section
/-! SUPPORT. The cause codes (60_exceptions R220 to R229): CAUSE and LOG_OUT are written together, one
code at a time, and each cause row is the step that records its code. -/

namespace Sys2Proof.Machine

/-! ## Recording a cause (R220, R229) -/

/-- From `s` to `t` no cause is recorded, or one is, or RESET clears them. -/
def RecordsAtMostOneCause (s t : State) : Prop :=
  (t.cause = s.cause ∧ t.logOut = s.logOut) ∨
    (t.cause ≠ .none ∧ t.logOut = s.logOut ++ [t.cause]) ∨ ∃ init : Angles, t = resetTo init s

section
variable (s : State)

theorem recordsAtMostOneCause_pushByte (b : Byte) (r : OpResult) :
    RecordsAtMostOneCause s (setResult r (pushByte b s)) := by
  rcases pushByte_cases b s with ⟨-, heq⟩ | ⟨-, heq⟩ <;> rw [heq]
  · exact .inl ⟨rfl, rfl⟩
  · exact .inr (.inl ⟨nofun, rfl⟩)

theorem recordsAtMostOneCause_countDown (r : OpResult) :
    RecordsAtMostOneCause s (setResult r (countDown s)) := by
  rcases countDown_cases s with ⟨-, heq⟩ | ⟨-, heq⟩ <;> rw [heq]
  · exact .inl ⟨rfl, rfl⟩
  · exact .inr (.inl ⟨nofun, rfl⟩)

theorem recordsAtMostOneCause_judgeFrame (c : Byte) (rest : List Byte) :
    RecordsAtMostOneCause s (judgeFrame c rest s) := by
  rcases judgeFrame_cases c rest s with ⟨-, heq⟩ | ⟨-, -, heq⟩ | ⟨-, -, heq⟩ <;> rw [heq]
  · exact .inr (.inl ⟨nofun, rfl⟩)
  · exact .inr (.inl ⟨nofun, rfl⟩)
  · exact .inl ⟨rfl, rfl⟩

theorem recordsAtMostOneCause_tickTo (cur : Angles) : RecordsAtMostOneCause s (tickTo cur s) := by
  rw [tickTo_frame]
  exact .inl ⟨rfl, rfl⟩

/-- Of the SEQ steps, SEQ_CSUM may record a cause and SEQ_EOS and SEQ_CANCEL do. -/
theorem recordsAtMostOneCause_seqEffect (k : SeqStep) :
    RecordsAtMostOneCause s (seqEffect s k) := by
  cases k with
  | csum => exact recordsAtMostOneCause_judgeFrame s _ _
  | eos | cancel => exact .inr (.inl ⟨nofun, rfl⟩)
  | huntDiscard | sync | payload | publish | flush | arm | ack => exact .inl ⟨rfl, rfl⟩

end

section
variable {s t : State} {i : Instr}

/-- A SEQ step that completes leaves its effect. -/
theorem eq_seqEffect_of_exec {k : SeqStep} (h : exec (seqInstr k) s = .next t) :
    t = seqEffect s k := by
  obtain ⟨e, -, heq⟩ := exec_seqInstr s k
  exact (whenEnabled_next_iff.mp (heq.symm.trans h)).right

/-- The SEQ steps are the instructions without an encoding (30_encoding R92). -/
theorem recordsAtMostOneCause_of_seqStep (h : exec i s = .next t) (hi : encode i = none) :
    RecordsAtMostOneCause s t := by
  obtain ⟨k, rfl⟩ := exists_seqInstr_of_encode_eq_none hi
  rw [eq_seqEffect_of_exec h]
  exact recordsAtMostOneCause_seqEffect s k

theorem recordsAtMostOneCause_timeTick (h : exec .timeTick s = .next t) :
    RecordsAtMostOneCause s t := by
  cases ha : armedWait s with
  | true =>
    rw [exec_timeTick_of_armed ha] at h
    cases h
    exact recordsAtMostOneCause_countDown s _
  | false =>
    rw [exec_timeTick_of_unarmed ha] at h
    cases h
    exact .inl ⟨rfl, rfl⟩

/-- The steps of the block, which are the host operations and the SEQ steps. -/
theorem recordsAtMostOneCause_of_blockStep (hi : isBlockStep i = true) (h : exec i s = .next t) :
    RecordsAtMostOneCause s t := by
  cases i with
  | reset init =>
    obtain ⟨-, hnext⟩ := withCheckedAngles_next_iff.mp h
    cases hnext
    exact .inr (.inr ⟨init, rfl⟩)
  | rxByte b =>
    cases heos : s.eosLatch with
    | true =>
      obtain ⟨-, -, hrefused⟩ := rxByteQueuesOrOverruns s b
      rw [hrefused heos] at h
      cases h
    | false =>
      rw [exec_rxByte heos] at h
      cases h
      exact recordsAtMostOneCause_pushByte s b _
  | tick cur =>
    obtain ⟨-, hnext⟩ := withCheckedAngles_next_iff.mp h
    cases hnext
    exact recordsAtMostOneCause_tickTo s cur
  | timeTick => exact recordsAtMostOneCause_timeTick h
  | rxEos | cancel | readReg n | snapshot | encode p => cases h; exact .inl ⟨rfl, rfl⟩
  | seqHuntDiscard | seqSync | seqPayload | seqCsum | seqEos | seqPublish | seqFlush | seqArm
  | seqAck | seqCancel =>
    exact recordsAtMostOneCause_of_seqStep h rfl
  | _ => cases hi

end

/-- Settles O50: a row that names an event is a step of the block (O57), and those record at most
one cause. -/
theorem causesAreRecordedOnce : Obligations.CausesAreRecordedOnce := by
  intro i s t hframe h
  cases hi : isBlockStep i with
  | true => exact recordsAtMostOneCause_of_blockStep hi h
  | false =>
    obtain ⟨i', hstep, hexec⟩ := eventRowsAddNoBehaviour i s t hi hframe h
    exact recordsAtMostOneCause_of_blockStep hstep hexec

/-! ## The cause rows (R220 to R227) -/

/-- The TIME_TICK that takes TIMER from 1 to 0 expires the wait (43_handshake R203). -/
theorem expiryDue_of_timer_eq_one {s : State} (harmed : armedWait s = true) (ht : s.timer = 1) :
    expiryDue s = true := by
  simp [expiryDue, harmed, ht]

/-- Settles O54: where a row's event is due, the step that records the code finds it. -/
theorem causeRowsComplete : Obligations.CauseRowsComplete := by
  intro s
  refine ⟨fun init hinit => ⟨_, exec_reset hinit, exec_reset hinit, rfl⟩,
    fun c rest hc hq hf hne => ?protocolError, fun c rest hc hq hf hsum hbad => ?invalidArgument,
    fun hq hc heos hf => ?streamClosed, fun hq hc => ?cancelled,
    fun hq hc ha ht => ?settleTimeout, fun heos hfull b => ?rxOverrun⟩
  case protocolError =>
    have hdue : mismatchDue s = true :=
      mismatchDue_iff.mpr ⟨c, rest, hf, reading_eq_true hq hc, hne⟩
    exact ⟨_, whenEnabled_next_iff.mpr ⟨hdue, rfl⟩, exec_seqCsum_of_mismatchDue hdue, rfl, rfl⟩
  case invalidArgument =>
    rw [← hasSentinel_eq_false_iff, Bool.not_eq_false] at hbad
    have hdue : sentinelDue s = true :=
      sentinelDue_iff.mpr ⟨c, rest, hf, reading_eq_true hq hc, hsum, hbad⟩
    exact ⟨_, whenEnabled_next_iff.mpr ⟨hdue, rfl⟩, exec_seqCsum_of_sentinelDue hdue, rfl, rfl, rfl⟩
  case streamClosed =>
    have hstep : exec .seqEos s = .next (closeStream s) :=
      exec_seqInstr_of_enabled (k := .eos) ⟨hq, hc, heos, hf⟩
    exact ⟨_, hstep, hstep, rfl, rfl, rfl⟩
  case cancelled =>
    have hstep : exec .seqCancel s = .next (cancelSequencer s) :=
      exec_seqInstr_of_enabled (k := .cancel) ⟨hq, hc⟩
    exact ⟨_, hstep, hstep, rfl, rfl, rfl⟩
  case settleTimeout =>
    have hdue := expiryDue_of_timer_eq_one (armedWait_iff.mpr ⟨hq, hc, ha⟩) ht
    refine ⟨_, whenEnabled_next_iff.mpr ⟨hdue, rfl⟩, exec_timeTick_of_expiryDue hdue, ?_⟩
    rw [countDown_of_timer_eq_one ht]
    exact ⟨rfl, rfl⟩
  case rxOverrun =>
    have hdue : overrunDue s = true := by simp [overrunDue, heos, hfull]
    exact ⟨_, whenEnabled_next_iff.mpr ⟨hdue, rfl⟩, exec_rxByte_of_overrunDue b hdue, rfl, rfl, rfl⟩

end Sys2Proof.Machine
end

section
/-! SUPPORT. RESET (70_reset_and_hazards): the state it leaves, that nothing else runs before the
first one, and the first TICK after it. -/

namespace Sys2Proof.Machine

/-! ## Before the first RESET (R251) -/

/-- RESET and the two rows that name events of it have one meaning. -/
theorem exec_of_isReset {i : Instr} (h : isReset i = true) (s : State) :
    ∃ init : Angles, exec i s = exec (.reset init) s := by
  cases i with
  | reset init | driveReset init | causeNone init => exact ⟨init, rfl⟩
  | _ => cases h

section
variable {s t : State}

theorem runLaunched_next_of_unlaunched {i : Instr} (hl : s.launched = false)
    (h : runLaunched i s = .next t) : ∃ init : Angles, exec (.reset init) s = .next t := by
  rw [runLaunched, hl, Bool.false_or] at h
  split at h
  case isTrue hi =>
    obtain ⟨init, heq⟩ := exec_of_isReset hi s
    exact ⟨init, heq ▸ h⟩
  case isFalse => cases h

/-- Before the first RESET the SEQ agent does not move. -/
theorem seqMove_of_unlaunched (hl : s.launched = false) : seqMove s = .refused .beforeReset := by
  simp [seqMove, hl]

theorem takeTurn_next_of_unlaunched {u : Turn} (hl : s.launched = false)
    (h : takeTurn u s = .next t) : ∃ init : Angles, exec (.reset init) s = .next t := by
  cases u with
  | seq name =>
    cases name with
    | none =>
      rw [takeTurn_unnamed, seqMove_of_unlaunched hl] at h
      cases h
    | some k => exact runLaunched_next_of_unlaunched hl h
  | packet p =>
    cases hd : decode s.seqState p with
    | ok i =>
      simp only [takeTurn, hd] at h
      exact runLaunched_next_of_unlaunched hl h
    | error e =>
      simp only [takeTurn, hd] at h
      cases h

theorem step_next_of_unlaunched (hl : s.launched = false) (h : step s = .next t) :
    ∃ init : Angles, exec (.reset init) { s with schedule := s.schedule.tail } = .next t := by
  cases hs : s.schedule with
  | nil =>
    rw [step_of_nil hs, seqMove_of_unlaunched hl] at h
    cases h
  | cons u rest =>
    rw [step_of_cons hs] at h
    exact takeTurn_next_of_unlaunched hl h

end

/-- The word of RESET is read whatever its angles are. -/
theorem decode_reset (q : SeqState) (init : Angles) :
    decode q (.op 0x000#12 (.angles init.toList)) = .ok (.reset init) :=
  Laws.Encoding.withAngles_toList init .reset

/-- Settles O6: what is run before the first RESET is a RESET, by the kind of the turn. -/
theorem onlyResetBeforeFirstReset : Obligations.OnlyResetBeforeFirstReset := by
  refine ⟨fun s init hinit => ⟨_, exec_reset hinit, rfl, rfl, rfl⟩,
    fun s hl => ⟨fun t h => step_next_of_unlaunched hl h, fun init rest hs => ?_⟩⟩
  rw [step_of_cons hs]
  simp [takeTurn, decode_reset, runLaunched, isReset]

/-! ## The first TICK after RESET (R253) -/

/-- A joint at its start-up angle, with TARGET 0, has no difference to resolve. -/
theorem angleEval_tier_of_start {x : Angle} (hx : isNumber x = true) :
    (angleEval .exact x x .zero).tier = .zero := by
  obtain ⟨hnum, hdiff⟩ := angleEval_diff_real hx hx (target := .zero) rfl
  have hpi := Real.pi_pos
  have hzero : angleReal (angleEval .exact x x .zero).diff = 0 := by
    rw [hdiff, angleReal_zero, add_zero, shortest, sub_self, if_neg (by linarith),
      if_neg (by linarith)]
  rw [angleEval_tier hnum, hzero, abs_zero, if_pos (by linarith)]

theorem jointEval_resetTo_tier {s : State} {init : Angles} (hk : s.cfg.arith = .exact) (j : Joint)
    (hj : isNumber init[j] = true) : (jointEval init (resetTo init s) j).tier = .zero := by
  have htarget : (resetTo init s).target[j] = .zero := by simp
  rw [jointEval, htarget, resetTo_cfg, resetTo_zero, hk]
  exact angleEval_tier_of_start hj

/-- When the last joint alone can still be unsettled and every joint settles, its update stops the
motion. -/
theorem stopAt_last {cur : Angles} {s : State} (hlast : s.settled[(17 : Joint)] = false)
    (hall : ∀ j : Joint, (jointEval cur s j).settled = true) : StopAt cur s 17 :=
  ⟨by omega, movingAfter_succ_iff.mpr ⟨17, hlast⟩,
    movingAfter_succ_eq_false_iff.mpr fun j => (settledAfter_all j).trans (hall j)⟩

/-- Settles O10: every joint is in tier ZERO, and joint 17, unsettled by RESET, is the last to
settle. -/
theorem firstTickAfterResetStops : Obligations.FirstTickAfterResetStops := by
  intro s init hk hnum
  have hangles : ∀ j : Joint, isAngleOf s.cfg.arith init[j] = true := fun j => by
    rw [hk, isAngleOf_exact]
    exact hnum j
  have htier : ∀ j : Joint, (jointEval init (resetTo init s) j).tier = .zero := fun j =>
    jointEval_resetTo_tier hk j (hnum j)
  have hsettled : ∀ j : Joint, (jointEval init (resetTo init s) j).settled = true := fun j =>
    (angleEval_settled _).mpr ((htier j).trans_ne nofun)
  have hstop : StopAt init (resetTo init s) 17 := stopAt_last (by simp) hsettled
  obtain ⟨stopped, hresult, hstopped, hawaiting⟩ :=
    tickTo_stopped (cur := init) (s := resetTo init s)
  obtain rfl : stopped = true := hstopped.mpr ⟨17, hstop⟩
  have hframe := tickTo_frame (cur := init) (s := resetTo init s)
  rw [hawaiting] at hframe
  refine ⟨_, _, exec_reset hangles, exec_tick hangles, fun j => ⟨?_, ?_⟩, ?_, hawaiting, hresult,
    hframe⟩
  · rw [tickTo_settled, hsettled]
  · rw [tickTo_driveOut, htier]
    rfl
  · rw [← Bool.not_eq_true, tickTo_moving_iff]
    rintro ⟨j, hj⟩
    rw [tickTo_settled, hsettled] at hj
    cases hj

/-! ## The state RESET leaves (R250) -/

/-- Settles O8: `resetTo` register by register, and STATUS of it. -/
theorem resetEstablishesStartState : Obligations.ResetEstablishesStartState := by
  refine fun s init => ⟨fun h => withCheckedAngles_refused (angleRefusal_nonFinite h) _,
    fun hinit => ⟨resetTo init s, exec_reset hinit, rfl, rfl, rfl, fun i => ?_, rfl, rfl, rfl, rfl,
      rfl, rfl, rfl, fun j => ⟨?_, rfl, ?_, driveBits_resetTo init s j⟩, rfl, rfl, rfl, rfl,
      exec_readReg (congrArg (fun w : BitVec 16 => OpResult.nat w.toNat)
        (statusWord_resetTo s init))⟩⟩
  · simp
  · simp [Angle.zero]
  · simp

end Sys2Proof.Machine
end
